-- ==== Sys2Proof/Word.lean ====
section
/-! DEFINITION. The two word types of the block: a character or byte (R9: 8 bits) and a 16-bit host value, checksum or
command word (R8, R9, R90). -/

namespace Sys2Proof

/-- A character code or a decoded byte: 8 bits (R9, R11). -/
abbrev Byte := BitVec 8

/-- A host-port value, a command word, or a checksum: 16 bits (R8, R9, R90). -/
abbrev Word := BitVec 16

end Sys2Proof
end

