-- ==== Sys2Proof/Config.lean ====
section
/-! DEFINITION. The constants of rule R9, the open parameter `LOWERCASE_HEX`, and the free values the spec leaves open
(U1, U5 of spec/93_implementation_defined.md). -/

namespace Sys2Proof

/-- The three byte buffers of R60. -/
inductive Buffer where
  /-- `RXBUF`: the hex text that is read (R41). -/
  | rxbuf
  /-- `SCR`: decoded bytes (R42). -/
  | scr
  /-- `TXBUF`: the hex text that is produced (R43). -/
  | txbuf
  deriving DecidableEq, Repr

/-- The open parameter of R9 and D6: do the letters `a` to `f` count as hex digits on input? It is an argument of the
model; the state carries it (log 6). -/
inductive LowercaseHex where
  /-- They do: the default of R9. -/
  | accept
  /-- They do not, and contribute 0 (R94). -/
  | reject
  deriving DecidableEq, Repr

namespace Config

/-- `MAGIC0`, ASCII `L` (R9). -/
def magic0 : Byte := 0x4C
/-- `MAGIC1`, ASCII `T` (R9). -/
def magic1 : Byte := 0x54
/-- `KIND_STATUS` (R9, R99). -/
def kindStatus : Byte := 0x03
/-- `KIND_SETACK` (R9, R99). -/
def kindSetack : Byte := 0x02
/-- `KIND_SETCMD` (R9, R99). -/
def kindSetcmd : Byte := 0x57
/-- `CMD_DEVID` (R9, R202). -/
def cmdDevId : Byte := 0x00
/-- `CMD_DEVTYPE` (R9, R202). -/
def cmdDevType : Byte := 0x30
/-- `CMD_LEN` (R9, R202). -/
def cmdLen : Byte := 0x09
/-- `CMD_ARGC` (R9, R202). -/
def cmdArgc : Byte := 0x01
/-- `CRC_POLY` (R9, R150). -/
def crcPoly : Word := 0x1021
/-- `CRC_INIT` (R9, R151). -/
def crcInit : Word := 0x0000
/-- `RX_CAP`: characters of `RXBUF` (R9, R41). -/
def rxCap : Nat := 2048
/-- `SCR_CAP`: bytes of `SCR` (R9, R42). -/
def scrCap : Nat := 1024
/-- `TX_CAP`: characters of `TXBUF` (R9, R43). -/
def txCap : Nat := 2048

/-- FREE VALUE (log 4; R48, U1): the byte a buffer location holds after reset number `epoch`, until something writes
it. Nothing constrains it, and it need not be the same after each reset. -/
opaque resetByte (epoch : Nat) (b : Buffer) (addr : Nat) : Byte

/-- FREE VALUE (log 8; R260, U5): what a host read returns that was held when reset number `epoch` arrived. -/
opaque abandonedRead (epoch : Nat) : Word

end Config

/-- The number of locations of a buffer (R60). -/
def Buffer.capacity : Buffer → Nat
  | .rxbuf => Config.rxCap
  | .scr => Config.scrCap
  | .txbuf => Config.txCap

end Sys2Proof
end

