-- ==== Sys2Proof/Machine/Codec.lean ====
section
/-! DEFINITION. The pure functions of the hex codec (spec/40_hex_codec.md) and the byte-order helpers they rest on. -/

namespace Sys2Proof.Machine

/-- Bits 7:4 of a byte: the upper digit of a digit pair (R11). -/
def hiNib (b : Byte) : BitVec 4 := b.extractLsb' 4 4

/-- Bits 3:0 of a byte: the lower digit of a digit pair (R11). -/
def loNib (b : Byte) : BitVec 4 := b.extractLsb' 0 4

/-- Bits 15:8 of a 16-bit value. -/
def hiByte (w : Word) : Byte := w.extractLsb' 8 8

/-- Bits 7:0 of a 16-bit value. -/
def loByte (w : Word) : Byte := w.extractLsb' 0 8

/-- The 16-bit number of two bytes, the first most significant (R63, R98). -/
def be16 (hi lo : Byte) : Word := (hi.setWidth 16 <<< 8) ||| lo.setWidth 16

/-- `nib(c)` (R130, table of R94): the value a character contributes as one hex digit; a character that is no digit
contributes 0. -/
def nib (lc : LowercaseHex) (c : Byte) : BitVec 4 :=
  if 0x30 ≤ c.toNat ∧ c.toNat ≤ 0x39 then BitVec.ofNat 4 (c.toNat - 0x30)
  else if 0x41 ≤ c.toNat ∧ c.toNat ≤ 0x46 then BitVec.ofNat 4 (c.toNat - 0x41 + 10)
  else if 0x61 ≤ c.toNat ∧ c.toNat ≤ 0x66 then
    match lc with
    | .accept => BitVec.ofNat 4 (c.toNat - 0x61 + 10)
    | .reject => 0
  else 0

/-- `hexbyte(h, l)` (R62, R131): the byte of one digit pair, the character at the lower index the upper digit. -/
def hexbyte (lc : LowercaseHex) (h l : Byte) : Byte :=
  ((nib lc h).setWidth 8 <<< 4) ||| (nib lc l).setWidth 8

/-- `dec_text(t)` (R131): the bytes of a hex text; an odd last character is not used (R66). -/
def decText (lc : LowercaseHex) : List Byte → List Byte
  | h :: l :: t => hexbyte lc h l :: decText lc t
  | [_] => []
  | [] => []

/-- `hexdigit(x)` (R132): the character of a nibble, uppercase. -/
def hexdigit (x : BitVec 4) : Byte :=
  if x.toNat ≤ 9 then BitVec.ofNat 8 (0x30 + x.toNat) else BitVec.ofNat 8 (0x41 + x.toNat - 10)

/-- `enc_bytes(s)` (R132): two characters per byte, upper nibble first. -/
def encBytes : List Byte → List Byte
  | b :: s => hexdigit (hiNib b) :: hexdigit (loNib b) :: encBytes s
  | [] => []

/-- `enc_be16(v)` (R133): the four characters of a 16-bit value, most significant first. -/
def encBe16 (v : Word) : List Byte := encBytes [hiByte v, loByte v]

end Sys2Proof.Machine
end

