-- ==== Sys2Proof/Machine/Crc.lean ====
section
/-! DEFINITION. The pure functions of the CRC-16/XMODEM generator (spec/41_crc.md). -/

namespace Sys2Proof.Machine

/-- One of the eight iterations of R150: the test of bit 15 is made before the shift. -/
def crcShift (r : Word) : Word :=
  if r.msb then (r <<< 1) ^^^ Config.crcPoly else r <<< 1

/-- `n` iterations of R150. -/
def crcShifts : Nat → Word → Word
  | 0, r => r
  | n + 1, r => crcShifts n (crcShift r)

/-- `crc_step(r, b)` (R150): fold one byte into the register. -/
def crcStep (r : Word) (b : Byte) : Word :=
  crcShifts 8 (r ^^^ (b.setWidth 16 <<< 8))

/-- Fold a byte sequence into the register, first byte first (R151). -/
def crcFold : Word → List Byte → Word
  | r, b :: s => crcFold (crcStep r b) s
  | r, [] => r

/-- `crc_bytes(s)` (R151): the fold from `CRC_INIT`. -/
def crcBytes (s : List Byte) : Word := crcFold Config.crcInit s

/-- `crc_text(t)` (R152): the CRC of the bytes a hex text decodes to. -/
def crcText (lc : LowercaseHex) (t : List Byte) : Word := crcBytes (decText lc t)

end Sys2Proof.Machine
end

