-- ==== Sys2Proof/Syntax.lean ====
section
/-! DEFINITION. The two levels of instruction of R3: the eight operations a command word selects (R91) and the four kinds
of frame the parser meets (R99, R106). One constructor per row of spec/opcode_table.json. -/

namespace Sys2Proof

/-- The six settings, which are also the six DeviceState fields, by the field codes 0 to 5 of the wire protocol
(R26, R37, R102). -/
inductive Setting where
  | power | channel | bright | cct | hue | sat
  deriving DecidableEq, Repr

/-- The instructions: rows of spec/opcode_table.json, in its order. The operation rows carry no operand (R90); the
frame rows carry the bytes of a frame's body that follow the magic, the length byte and, where the row fixes it, the
kind byte. The length byte and the checksum are functions of these (R96, R97). -/
inductive Instr where
  /-- `NOP` (R219). -/
  | nop
  /-- `HEXDEC` (R135). -/
  | hexdec
  /-- `HEXENC` (R136). -/
  | hexenc
  /-- `HEXENC16` (R137). -/
  | hexenc16
  /-- `CRC16` (R154). -/
  | crc16
  /-- `PARSE` (R166). -/
  | parse
  /-- `BUILDSET` (R203). -/
  | buildset
  /-- `DSCLR` (R220). -/
  | dsclr
  /-- `STATUS` frame (R100, R179): bytes 3, 4, then 6 to 11, then the surplus payload bytes 12 to `L`. -/
  | status (devId devType power channel bright cct hue sat : Byte) (surplus : List Byte)
  /-- `SETACK` frame (R101, R180): bytes 3, 4, then 6 (reserved), 7 (field code), 8 (argument count), 9 (value), then the
  surplus payload bytes 10 to `L`. -/
  | setack (devId devType reserved : Byte) (field : Setting) (argc value : Byte) (surplus : List Byte)
  /-- `SETCMD` frame as received (R99, R182): bytes 3, 4, then the kind payload, bytes 6 to `L`. -/
  | setcmd (devId devType : Byte) (payload : List Byte)
  /-- Any other validated frame (R178, R181, R182): bytes 3 to `L`. -/
  | other (body : List Byte)
  deriving DecidableEq, Repr

/-- The row's mnemonic in spec/opcode_table.json. -/
def Instr.mnemonic : Instr → String
  | .nop => "NOP"
  | .hexdec => "HEXDEC"
  | .hexenc => "HEXENC"
  | .hexenc16 => "HEXENC16"
  | .crc16 => "CRC16"
  | .parse => "PARSE"
  | .buildset => "BUILDSET"
  | .dsclr => "DSCLR"
  | .status .. => "STATUS"
  | .setack .. => "SETACK"
  | .setcmd .. => "SETCMD"
  | .other .. => "OTHER"

/-- Why the parser's loop ends (R32, R169): the first of the four checks a candidate frame fails. None is an error
(R186). -/
inductive StopReason where
  /-- Check 1: fewer than 6 characters remain (R170). -/
  | shortText
  /-- Check 2: the next two decoded bytes are not the magic (R171). -/
  | badMagic
  /-- Check 3: the length byte exceeds what remains after the header (R172). -/
  | badLength
  /-- Check 4: the computed checksum differs from the received one (R173). -/
  | badChecksum (computed : Word)
  deriving DecidableEq, Repr

/-- Why bits are not an instruction. -/
inductive DecodeError where
  /-- A command word with one of bits 15:3 set (R92). -/
  | reservedBits
  /-- Bytes that are not a validated frame (R169). -/
  | noFrame (why : StopReason)
  deriving DecidableEq, Repr

/-- What an instruction is encoded as: a command word (R90) or the bytes of a frame (R96). -/
inductive Encoded where
  | command (w : Word)
  | frame (bytes : List Byte)
  deriving DecidableEq, Repr

end Sys2Proof
end

