-- ==== Sys2Proof/WellFormed.lean ====
section
/-! DEFINITION. Which terms of `Instr` are instructions of the block: the length byte of a frame is at most 255 (R95),
and a frame of the row `OTHER` is one that no earlier row selects (R106, R176). -/

namespace Sys2Proof

/-- Frame byte 7 names a DeviceState field (R102). -/
def fieldCodeNamed (c : Byte) : Bool := decide (c.toNat ≤ 5)

/-- The body bytes 3 to `L` are those of a `STATUS` update: kind 0x03 and `L` ≥ 11 (R176 class 1). -/
def bodyIsStatus : List Byte → Bool
  | _ :: _ :: k :: payload => k == Config.kindStatus && decide (6 ≤ payload.length)
  | _ => false

/-- The body bytes 3 to `L` are those of a `SETACK` update: kind 0x02, `L` ≥ 9, field code 0 to 5 (R176 class 2). -/
def bodyIsSetack : List Byte → Bool
  | _ :: _ :: k :: _ :: f :: _ :: _ :: _ => k == Config.kindSetack && fieldCodeNamed f
  | _ => false

/-- The body bytes 3 to `L` have the kind byte 0x57 (R99). -/
def bodyIsSetcmd : List Byte → Bool
  | _ :: _ :: k :: _ => k == Config.kindSetcmd
  | _ => false

/-- No row before `OTHER` selects a frame with these body bytes (R106). -/
def bodyIsOther (body : List Byte) : Bool :=
  !bodyIsStatus body && !bodyIsSetack body && !bodyIsSetcmd body

/-- The length byte `L` of a frame as a number: the bytes after the header, checksum included (R13, R95). It is 0 for
an operation, which is no frame. -/
def Instr.lengthByte : Instr → Nat
  | .status _ _ _ _ _ _ _ _ surplus => 11 + surplus.length
  | .setack _ _ _ _ _ _ surplus => 9 + surplus.length
  | .setcmd _ _ payload => 5 + payload.length
  | .other body => 2 + body.length
  | .nop => 0
  | .hexdec => 0
  | .hexenc => 0
  | .hexenc16 => 0
  | .crc16 => 0
  | .parse => 0
  | .buildset => 0
  | .dsclr => 0

/-- The operands of a frame row are not those of an earlier row (R106): a condition on `OTHER` only. -/
def Instr.rowOk : Instr → Bool
  | .other body => bodyIsOther body
  | .status .. => true
  | .setack .. => true
  | .setcmd .. => true
  | .nop => true
  | .hexdec => true
  | .hexenc => true
  | .hexenc16 => true
  | .crc16 => true
  | .parse => true
  | .buildset => true
  | .dsclr => true

/-- A well-formed instruction: its length byte fits eight bits (R95), and an `OTHER` frame is not one of an earlier row
(R106). -/
def Instr.wf (i : Instr) : Bool := decide (i.lengthByte ≤ 255) && i.rowOk

/-- The instruction is a frame (second level of R3), not an operation. -/
def Instr.isFrame : Instr → Bool
  | .status .. => true
  | .setack .. => true
  | .setcmd .. => true
  | .other .. => true
  | .nop => false
  | .hexdec => false
  | .hexenc => false
  | .hexenc16 => false
  | .crc16 => false
  | .parse => false
  | .buildset => false
  | .dsclr => false

end Sys2Proof
end

