-- ==== Sys2Proof/Decode.lean ====
section
/-! DEFINITION. Decoding, total on any word and any bytes, rejecting by name, and then the encoder (spec/30_encoding.md;
the four checks of a frame from spec/42_frame_parser.md). -/

namespace Sys2Proof

open Sys2Proof.Machine

/-! ## Decoding -/

/-- The operation a command word selects (R90 to R92). -/
def decodeCommand (w : Word) : Except DecodeError Instr :=
  if w.extractLsb' 3 13 ≠ 0 then .error .reservedBits
  else
    match (w.extractLsb' 0 3).toNat with
    | 0 => .ok .nop
    | 1 => .ok .hexdec
    | 2 => .ok .hexenc
    | 3 => .ok .hexenc16
    | 4 => .ok .crc16
    | 5 => .ok .parse
    | 6 => .ok .buildset
    | _ => .ok .dsclr

/-- The DeviceState field a field code names; codes 6 to 255 name none (R102). -/
def settingOfCode (c : Byte) : Option Setting :=
  match c.toNat with
  | 0 => some .power
  | 1 => some .channel
  | 2 => some .bright
  | 3 => some .cct
  | 4 => some .hue
  | 5 => some .sat
  | _ => none

/-- Classification of a validated frame (R176, R178, R181, R182) from its body bytes 3 to `L`; no byte beyond the body
is looked at (R178; log 11). -/
def classify (body : List Byte) : Instr :=
  match body with
  | devId :: devType :: kind :: payload =>
    if kind = Config.kindStatus then
      match payload with
      | p :: c :: b :: t :: h :: s :: surplus => .status devId devType p c b t h s surplus
      | _ => .other body
    else if kind = Config.kindSetack then
      match payload with
      | reserved :: f :: argc :: value :: surplus =>
        match settingOfCode f with
        | some field => .setack devId devType reserved field argc value surplus
        | none => .other body
      | _ => .other body
    else if kind = Config.kindSetcmd then .setcmd devId devType payload
    else .other body
  | _ => .other body

/-- The four checks of R169 to R173, in their order, on a candidate frame that starts `bytes`, and its classification.
`nchars` is the number of characters that remain (check 1), `crcOf n` the computed checksum of the candidate's first
`n` bytes; the answer carries the computed checksum. -/
def decodeFrameWith (nchars : Nat) (crcOf : Nat → Word) (bytes : List Byte) : Except StopReason (Instr × Word) :=
  match bytes with
  | m0 :: m1 :: l :: rest =>
    if nchars < 6 then .error .shortText
    else if ¬(m0 = Config.magic0 ∧ m1 = Config.magic1) then .error .badMagic
    else if rest.length < l.toNat then .error .badLength
    else
      let c := crcOf (l.toNat + 1)
      let received := be16 (bytes.getD (l.toNat + 1) 0) (bytes.getD (l.toNat + 2) 0)
      if c ≠ received then .error (.badChecksum c)
      else .ok (classify ((bytes.take (l.toNat + 1)).drop 3), c)
  | _ => .error .shortText

/-- The frame at the front of a byte sequence (R96, R105); bytes after it are left alone. -/
def decodeFrame (bytes : List Byte) : Except DecodeError Instr :=
  match decodeFrameWith (2 * bytes.length) (fun n => crcBytes (bytes.take n)) bytes with
  | .ok (i, _) => .ok i
  | .error r => .error (.noFrame r)

/-- Decoding at both levels of R3. -/
def decode : Encoded → Except DecodeError Instr
  | .command w => decodeCommand w
  | .frame bytes => decodeFrame bytes

/-! ## The rows of the opcode table (R106) -/

/-- A row of format `CMD` of spec/opcode_table.json. -/
structure CommandRow where
  mnemonic : String
  pattern : Word
  mask : Word
  deriving DecidableEq, Repr

/-- The eight operation rows: a 16-bit `match` and `mask` over the command word (R106). -/
def commandRows : List CommandRow :=
  [ ⟨"NOP", 0x0000, 0xFFFF⟩, ⟨"HEXDEC", 0x0001, 0xFFFF⟩, ⟨"HEXENC", 0x0002, 0xFFFF⟩, ⟨"HEXENC16", 0x0003, 0xFFFF⟩,
    ⟨"CRC16", 0x0004, 0xFFFF⟩, ⟨"PARSE", 0x0005, 0xFFFF⟩, ⟨"BUILDSET", 0x0006, 0xFFFF⟩, ⟨"DSCLR", 0x0007, 0xFFFF⟩ ]

/-- The operation row a command word matches. -/
def selectCommandRow (w : Word) : Option String :=
  (commandRows.find? (fun r => w &&& r.mask == r.pattern)).map (·.mnemonic)

/-- A row of format `FRAME` of spec/opcode_table.json: `pattern` is its `match`. -/
structure FrameRow where
  mnemonic : String
  pattern : BitVec 48
  mask : BitVec 48
  minL : Nat
  /-- The row has the `extra_condition` that frame byte 7, the field code, is at most 5. -/
  needsFieldCode : Bool
  deriving DecidableEq, Repr

/-- The four rows, in priority order (R106). -/
def frameRows : List FrameRow :=
  [ ⟨"STATUS", 0x4C5400000003, 0xFFFF000000FF, 11, false⟩,
    ⟨"SETACK", 0x4C5400000002, 0xFFFF000000FF, 9, true⟩,
    ⟨"SETCMD", 0x4C5400000057, 0xFFFF000000FF, 0, false⟩,
    ⟨"OTHER", 0x4C5400000000, 0xFFFF00000000, 0, false⟩ ]

/-- The 48-bit header value of R106 of a frame whose bytes 0 to `L` are `body`: byte 0 in bits 47:40. A byte that lies
outside the body is not read and counts as 0 (R178; log 11). -/
def headerWord (body : List Byte) : BitVec 48 :=
  ((body.getD 0 0).setWidth 48 <<< 40) ||| ((body.getD 1 0).setWidth 48 <<< 32) |||
  ((body.getD 2 0).setWidth 48 <<< 24) ||| ((body.getD 3 0).setWidth 48 <<< 16) |||
  ((body.getD 4 0).setWidth 48 <<< 8) ||| (body.getD 5 0).setWidth 48

/-- The conditions of R106 on a row and a frame whose bytes 0 to `L` are `body`: match under the mask, and `min_L`. -/
def FrameRow.matchesHeader (r : FrameRow) (body : List Byte) : Bool :=
  (headerWord body &&& r.mask == r.pattern) && decide (r.minL ≤ (body.getD 2 0).toNat)

/-- The row's `extra_condition` in spec/opcode_table.json: that of `SETACK` is "frame byte 7 (field code) <= 5;
otherwise the frame falls to OTHER (rule R181)". -/
def FrameRow.extraCondition (r : FrameRow) (body : List Byte) : Bool :=
  !r.needsFieldCode || fieldCodeNamed (body.getD 7 0)

/-- The table's row of a frame: the first one in priority order that matches its header (R106) and whose extra
condition holds. -/
def selectRow (body : List Byte) : Option String :=
  (frameRows.find? (fun r => r.matchesHeader body && r.extraCondition body)).map (·.mnemonic)

/-! ## Encoding -/

/-- The operation code of R91. -/
def opCode : Instr → Option (BitVec 3)
  | .nop => some 0
  | .hexdec => some 1
  | .hexenc => some 2
  | .hexenc16 => some 3
  | .crc16 => some 4
  | .parse => some 5
  | .buildset => some 6
  | .dsclr => some 7
  | .status .. => none
  | .setack .. => none
  | .setcmd .. => none
  | .other .. => none

/-- The field code of a setting (R102). -/
def fieldCode : Setting → Byte
  | .power => 0
  | .channel => 1
  | .bright => 2
  | .cct => 3
  | .hue => 4
  | .sat => 5

/-- Frame bytes 3 to `L` (R96, R100, R101); none for an operation. -/
def bodyTail : Instr → List Byte
  | .status devId devType p c b t h s surplus =>
    devId :: devType :: Config.kindStatus :: p :: c :: b :: t :: h :: s :: surplus
  | .setack devId devType reserved field argc value surplus =>
    devId :: devType :: Config.kindSetack :: reserved :: fieldCode field :: argc :: value :: surplus
  | .setcmd devId devType payload => devId :: devType :: Config.kindSetcmd :: payload
  | .other body => body
  | .nop => []
  | .hexdec => []
  | .hexenc => []
  | .hexenc16 => []
  | .crc16 => []
  | .parse => []
  | .buildset => []
  | .dsclr => []

/-- Frame bytes 0 to `L`: what the checksum covers (R97). -/
def frameBody (i : Instr) : List Byte :=
  Config.magic0 :: Config.magic1 :: BitVec.ofNat 8 i.lengthByte :: bodyTail i

/-- A body followed by its checksum, most significant byte first (R63, R96). -/
def withChecksum (body : List Byte) : List Byte :=
  body ++ [hiByte (crcBytes body), loByte (crcBytes body)]

/-- The command word of an operation (R91) or the bytes of a frame (R96). -/
def encode (i : Instr) : Encoded :=
  match opCode i with
  | some op => .command (op.setWidth 16)
  | none => .frame (withChecksum (frameBody i))

/-! ## The numbering of spec/opcode_table.json -/

/-- Byte `k` of the 48-bit header value `w` of R106. -/
def headerByte (w k : Nat) : Byte := BitVec.ofNat 8 (w >>> (40 - 8 * k))

/-- The frame that a 48-bit header value stands for: its first six bytes, every further body byte 0, and the checksum of
that body (log 12). With `L` < 2 the checksum would lie inside the header, and the six bytes stand as they are: no
such frame validates (R175). -/
def frameOfHeader (w : Nat) : List Byte :=
  let six := [headerByte w 0, headerByte w 1, headerByte w 2, headerByte w 3, headerByte w 4, headerByte w 5]
  let l := (headerByte w 2).toNat
  if l < 2 then six
  else withChecksum ((six ++ List.replicate (l - 5) 0).take (l + 1))

/-- What a row's bits stand for: up to 16 bits a command word, otherwise the header of a frame (R106). -/
def encodedOfTableWord (nbits w : Nat) : Encoded :=
  if nbits ≤ 16 then .command (BitVec.ofNat 16 w) else .frame (frameOfHeader w)

/-- The instruction the decoder reads from an instruction whose bits are `w`, numbered as spec/opcode_table.json numbers
them. -/
def decodeTableWord (nbits w : Nat) : Option Instr :=
  match decode (encodedOfTableWord nbits w) with
  | .ok i => some i
  | .error _ => none

end Sys2Proof
end

