-- ==== Sys2Proof/Machine/State.lean ====
section
/-! DEFINITION. The state of the block (R20, R21), plain data, and the state after reset (R48). -/

namespace Sys2Proof.Machine

/-- A buffer's contents: the (address, byte) pairs written since reset, addresses strictly rising. An address that is not
listed holds a byte nothing has written, which the spec leaves free (R48, U1; log 4, log 5). -/
abbrev Memory := List Host.Cell

/-- The six DeviceState fields (R36, R37). `none` is `KNOWN` = 0, `some v` is `KNOWN` = 1 with `VALUE` = `v`: the form
R36 offers a model (log 10). -/
structure DeviceState where
  /-- `DS_POWER`, index 16. -/
  power : Option Byte
  /-- `DS_CHANNEL`, index 17. -/
  channel : Option Byte
  /-- `DS_BRIGHT`, index 18. -/
  bright : Option Byte
  /-- `DS_CCT`, index 19. -/
  cct : Option Byte
  /-- `DS_HUE`, index 20. -/
  hue : Option Byte
  /-- `DS_SAT`, index 21. -/
  sat : Option Byte
  deriving DecidableEq, Repr

/-- All six fields unknown (R36). -/
def DeviceState.unknown : DeviceState := ⟨none, none, none, none, none, none⟩

/-- What a running sequencer is at: a working value of the operation, which R20 does not count as state (log 1). -/
inductive Job where
  /-- An accepted command whose operation has not been executed yet; `cmd` is its command word (R215). -/
  | operation (cmd : Word)
  /-- The frame loop of `PARSE`: the next thing is the candidate frame at the cursors (R169, R187). -/
  | frames
  deriving DecidableEq, Repr

/-- The sequencer's phase (R45). -/
inductive Phase where
  | idle
  /-- From the acceptance of a command until its operation ends; `busy` is 1. -/
  | running (job : Job)
  deriving DecidableEq, Repr

/-- The address spaces of R60. -/
inductive Space where
  | reg
  | buf (b : Buffer)
  deriving DecidableEq, Repr

/-- The two host-port transactions of R8. -/
inductive HostTxn where
  | write (space : Space) (addr : Nat) (value : Word)
  | read (space : Space) (addr : Nat)
  deriving DecidableEq, Repr

/-- What the outside does next (R7, R8, R260; log 2). -/
inductive Input where
  /-- The host presents a transaction at the port. -/
  | txn (t : HostTxn)
  /-- The `rst` pin is asserted. -/
  | rst
  /-- Nothing happens outside for the length of one step. -/
  | quiet
  deriving DecidableEq, Repr

/-- What an observer of the port and of the strobes sees (R52; log 9). -/
inductive PortEvent where
  /-- One pulse of `notify`; its snapshot is the entry of `NTRACE` of the same number (R240). -/
  | notify
  /-- One pulse of `done` (R244). -/
  | done
  /-- A host read returned a value (R8). -/
  | returned (value : Word)
  deriving DecidableEq, Repr

/-- The machine's state. `status` to `phase` are the spec's (R20, R21); `held` to `lowercase` are the model's own
(INVENTORY.md, State). -/
structure State where
  /-- `STATUS`: `ERR` in bit 0, `ERRCODE` in bits 3:1 (R23). -/
  status : BitVec 4
  /-- `LEN` (R24). -/
  len : BitVec 12
  /-- `VAL` (R25). -/
  val : BitVec 16
  /-- `SEL` (R26). -/
  sel : BitVec 3
  /-- `CRC` (R27). -/
  crc : BitVec 16
  /-- `OUTLEN` (R28). -/
  outlen : BitVec 12
  /-- `FRAMES` (R29). -/
  frames : BitVec 8
  /-- `NOTIFS` (R30). -/
  notifs : BitVec 8
  /-- `IGNORED` (R31). -/
  ignored : BitVec 8
  /-- `STOPWHY` (R32). -/
  stopwhy : BitVec 3
  /-- `HCUR` (R34). -/
  hcur : BitVec 12
  /-- `BCUR` (R34). -/
  bcur : BitVec 11
  /-- `DS_POWER` to `DS_SAT` (R36). -/
  ds : DeviceState
  /-- `RXBUF` (R41). -/
  rxbuf : Memory
  /-- `SCR` (R42). -/
  scr : Memory
  /-- `TXBUF` (R43). -/
  txbuf : Memory
  /-- `NTRACE`, oldest first (R44). -/
  ntrace : List DeviceState
  /-- The sequencer's phase (R45). -/
  phase : Phase
  /-- The host transaction held at the port while the block is busy (R70; log 3). -/
  held : Option HostTxn
  /-- What the outside does next, oldest first (log 2). -/
  inputs : List Input
  /-- The port events since reset, oldest first (log 9). -/
  ptrace : List PortEvent
  /-- How many resets came after the first: the index of the free bytes of the buffers (log 4). -/
  epoch : Nat
  /-- The parameter `LOWERCASE_HEX` (R9; log 6). -/
  lowercase : LowercaseHex
  deriving DecidableEq, Repr

/-- The block has no fault: nothing in the buffers and no command makes it trap, fault or hang (R230, R270). The type has
no constructor; nobody raises one (log 13). -/
inductive Fault where
  deriving DecidableEq, Repr

/-- Reasons the model gives an instruction no meaning. A refusal in the spec's sense (R232) is not one of these: it is a
next state. -/
inductive Refusal where
  /-- `exec` has no meaning for the instruction of this mnemonic. No arm of `exec` answers it: every instruction has its
  meaning (safe: a run would stop). -/
  | notModelled (mnemonic : String)
  deriving DecidableEq, Repr

/-- The state after the first reset (R48): every register 0, DeviceState unknown, the trace empty, the sequencer idle;
the buffers unspecified (no cell listed). The model's own fields: nothing held, no input, no port event, epoch 0, and
`LOWERCASE_HEX` at the default of R9. -/
def State.reset : State where
  status := 0
  len := 0
  val := 0
  sel := 0
  crc := 0
  outlen := 0
  frames := 0
  notifs := 0
  ignored := 0
  stopwhy := 0
  hcur := 0
  bcur := 0
  ds := .unknown
  rxbuf := []
  scr := []
  txbuf := []
  ntrace := []
  phase := .idle
  held := none
  inputs := []
  ptrace := []
  epoch := 0
  lowercase := .accept

end Sys2Proof.Machine
end

