-- ==== Sys2Proof/Machine/Flags.lean ====
section
/-! DEFINITION. Every flag of the block (R40): the fields of `STATUS` (R23), the `KNOWN` bits (R36), `busy` (R45), and
the codes `STATUS` and `STOPWHY` record (R231, R32). -/

namespace Sys2Proof.Machine

/-- The causes of a refusal (R231). -/
inductive RefuseCode where
  | illegalCmd
  | lenRange
  | selRange
  deriving DecidableEq, Repr

/-- The number `ERRCODE` records (R231). -/
def refuseNumber : RefuseCode → BitVec 3
  | .illegalCmd => 1
  | .lenRange => 2
  | .selRange => 3

/-- The number `STOPWHY` records (R32). -/
def stopNumber : StopReason → BitVec 3
  | .shortText => 1
  | .badMagic => 2
  | .badLength => 3
  | .badChecksum _ => 4

/-- `STATUS` with `ERR` = 1 and the code in bits 3:1 (R23). -/
def statusOfRefusal (c : RefuseCode) : BitVec 4 := ((refuseNumber c).setWidth 4 <<< 1) ||| 1

/-- `STATUS.ERR` (R23). -/
def errBit (status : BitVec 4) : Bool := status.getLsbD 0

/-- `STATUS.ERRCODE` (R23). -/
def errCode (status : BitVec 4) : BitVec 3 := status.extractLsb' 1 3

/-- The 9-bit register value of a DeviceState field: `KNOWN` in bit 8, `VALUE` in bits 7:0, all 0 while unknown
(R36). -/
def knownWord : Option Byte → BitVec 9
  | some v => 0x100 ||| v.setWidth 9
  | none => 0

/-- The `busy` output (R45). -/
def State.busy (s : State) : Bool :=
  match s.phase with
  | .idle => false
  | .running _ => true

/-- The six `ds_*` buses, in the order of R52: they show the DeviceState registers. -/
def State.dsBuses (s : State) : List (BitVec 9) :=
  [knownWord s.ds.power, knownWord s.ds.channel, knownWord s.ds.bright, knownWord s.ds.cct, knownWord s.ds.hue,
    knownWord s.ds.sat]

end Sys2Proof.Machine
end

