-- ==== Sys2Proof/Machine/Ops.lean ====
section
/-! DEFINITION. The named operations over buffers, registers and events that the meanings share: buffer reads and writes
(R12), the DeviceState file, `emit Done`, `emit Notify`, `raise Refuse` and the status clear, the steps of `PARSE`,
and reset. -/

namespace Sys2Proof.Machine

/-! ## One buffer -/

/-- The byte written at an address since reset, if any. -/
def Memory.lookup : Memory → Nat → Option Byte
  | [], _ => none
  | (a, b) :: m, x => if x = a then some b else Memory.lookup m x

/-- Write one byte, keeping the addresses strictly rising. -/
def Memory.store : Memory → Nat → Byte → Memory
  | [], x, v => [(x, v)]
  | (a, b) :: m, x, v =>
    if x < a then (x, v) :: (a, b) :: m
    else if x = a then (x, v) :: m
    else (a, b) :: Memory.store m x v

/-- `MemWrite`: write a byte sequence at consecutive addresses, first byte first (R12). -/
def Memory.storeSeq : Memory → Nat → List Byte → Memory
  | m, _, [] => m
  | m, x, v :: vs => Memory.storeSeq (m.store x v) (x + 1) vs

/-- Every address of the list is at least `lo` and below `cap`, and the addresses are strictly rising. -/
def Memory.wfFrom (cap : Nat) : Nat → Memory → Bool
  | _, [] => true
  | lo, (a, _) :: m => decide (lo ≤ a) && decide (a < cap) && Memory.wfFrom cap (a + 1) m

/-- The canonical form of a buffer of `cap` locations: addresses strictly rising, all in range (log 5). -/
def Memory.wf (cap : Nat) (m : Memory) : Bool := Memory.wfFrom cap 0 m

/-! ## The three buffers -/

/-- A buffer of the state. -/
def State.buffer (s : State) : Buffer → Memory
  | .rxbuf => s.rxbuf
  | .scr => s.scr
  | .txbuf => s.txbuf

/-- One byte of a buffer (R12); a location nothing has written since reset holds the free byte of U1 (log 4). -/
def State.peek (s : State) (b : Buffer) (a : Nat) : Byte :=
  match (s.buffer b).lookup a with
  | some v => v
  | none => Config.resetByte s.epoch b a

/-- `MemRead(b, a, n)` (R12). -/
def State.memRead (s : State) (b : Buffer) (a : Nat) : Nat → List Byte
  | 0 => []
  | n + 1 => s.peek b a :: State.memRead s b (a + 1) n

/-- `MemWrite(b, a, n, vs)` (R12), `n` the length of `vs`. -/
def State.memWrite (s : State) (b : Buffer) (a : Nat) (vs : List Byte) : State :=
  match b with
  | .rxbuf => { s with rxbuf := s.rxbuf.storeSeq a vs }
  | .scr => { s with scr := s.scr.storeSeq a vs }
  | .txbuf => { s with txbuf := s.txbuf.storeSeq a vs }

/-! ## DeviceState -/

/-- One field of DeviceState (R102: code `c` names register index 16 + `c`). -/
def DeviceState.get (d : DeviceState) : Setting → Option Byte
  | .power => d.power
  | .channel => d.channel
  | .bright => d.bright
  | .cct => d.cct
  | .hue => d.hue
  | .sat => d.sat

/-- `REG[16 + f] <- known(v)` (R180): the field becomes known with the value, the other five are unchanged. -/
def DeviceState.set (d : DeviceState) (f : Setting) (v : Byte) : DeviceState :=
  match f with
  | .power => { d with power := some v }
  | .channel => { d with channel := some v }
  | .bright => { d with bright := some v }
  | .cct => { d with cct := some v }
  | .hue => { d with hue := some v }
  | .sat => { d with sat := some v }

/-- Write all six DeviceState registers together (R53, R179, R220). -/
def State.setDs (s : State) (d : DeviceState) : State := { s with ds := d }

/-- Write one DeviceState register (R180). -/
def State.setField (s : State) (f : Setting) (v : Byte) : State := s.setDs (s.ds.set f v)

/-! ## Events -/

/-- `emit Done` (R244): one pulse of `done`; the command has ended and `busy` is 0 from then on (R45). -/
def State.emitDone (s : State) : State := { s with phase := .idle, ptrace := s.ptrace ++ [.done] }

/-- An accepted command starts (R45, R215 step 4): the sequencer is running, with this command to execute. -/
def State.start (s : State) (cmd : Word) : State := { s with phase := .running (.operation cmd) }

/-- The notification of R183 and R240: `NOTIFS` counts it, `NTRACE` takes the snapshot of the six registers as they
stand, `notify` pulses. -/
def State.emitNotify (s : State) : State :=
  { s with notifs := s.notifs + 1, ntrace := s.ntrace ++ [s.ds], ptrace := s.ptrace ++ [.notify] }

/-- A host read returns a value (R8). -/
def State.returnValue (s : State) (v : Word) : State := { s with ptrace := s.ptrace ++ [.returned v] }

/-! ## Refusal (the block's only exception, R230 to R234) and the status clear -/

/-- `raise Refuse(code)` (R232), the whole of it: `ERR` and `ERRCODE` are written, `Done` is emitted, nothing else
changes and the block is idle. There is nothing to return from (R234). -/
def State.refuse (s : State) (c : RefuseCode) : State :=
  ({ s with status := statusOfRefusal c } : State).emitDone

/-- `HostWrite(REG, 1, v)` (R221): with bit 0 set it clears `ERR` and `ERRCODE`, otherwise it does nothing; no `Done`. -/
def State.clearStatus (s : State) (v : Word) : State :=
  if v.getLsbD 0 then { s with status := 0 } else s

/-! ## The steps of `PARSE` -/

/-- The frame loop starts (R166): the sequencer is running, at the candidate frames. -/
def State.enterLoop (s : State) : State := { s with phase := .running .frames }

/-- R167: what an accepted `PARSE` clears before anything else. -/
def State.clearParse (s : State) : State :=
  { s with frames := 0, notifs := 0, ignored := 0, stopwhy := 0, hcur := 0, bcur := 0, crc := 0 }

/-- R135, R168: decode the whole text of `RXBUF[0..LEN)` into `SCR` from index 0, and set `OUTLEN`. -/
def State.decodeText (s : State) : State :=
  { s.memWrite .scr 0 (decText s.lowercase (s.memRead .rxbuf 0 s.len.toNat)) with
    outlen := s.len >>> 1 }

/-- R174: a validated frame is counted, whatever its kind. -/
def State.countFrame (s : State) : State := { s with frames := s.frames + 1 }

/-- R31: a validated frame that changes nothing is counted as ignored. -/
def State.countIgnored (s : State) : State := { s with ignored := s.ignored + 1 }

/-- R174: the cursors advance by a frame of length byte `l`, `T` = 3 + `l` bytes and 2 × `T` characters. -/
def State.advance (s : State) (l : Nat) : State :=
  { s with hcur := s.hcur + BitVec.ofNat 12 (2 * (3 + l)), bcur := s.bcur + BitVec.ofNat 11 (3 + l) }

/-- The computed checksum that check 4 leaves in `CRC`, where the loop got as far as check 4 (R173). -/
def stopCrc (old : Word) : StopReason → Word
  | .badChecksum c => c
  | .shortText => old
  | .badMagic => old
  | .badLength => old

/-- `stop(code)` (R166, R169): `STOPWHY` records why, the operation ends, `Done` is emitted. -/
def State.stopParse (s : State) (r : StopReason) : State :=
  ({ s with crc := stopCrc s.crc r, stopwhy := stopNumber r } : State).emitDone

/-! ## Reset -/

/-- What the observer of the port sees of a host transaction that a reset abandons (R260): a held write has no effect, a
held read returns an unspecified value (U5; log 8). -/
def abandoned (epoch : Nat) : Option HostTxn → List PortEvent
  | some (.read _ _) => [.returned (Config.abandonedRead epoch)]
  | some (.write _ _ _) => []
  | none => []

/-- R260: reset. Every register, the trace and the phase take the values of R48, the buffers hold unspecified bytes (a new
epoch), a running operation and a held transaction are abandoned. `rest` is what the outside does afterwards; the
parameter `LOWERCASE_HEX` stays (log 6). -/
def State.resetWith (s : State) (rest : List Input) : State :=
  { State.reset with
    inputs := rest
    epoch := s.epoch + 1
    ptrace := abandoned (s.epoch + 1) s.held
    lowercase := s.lowercase }

end Sys2Proof.Machine
end

