-- ==== Sys2Proof/Machine/Operands.lean ====
section
/-! DEFINITION. Every operand form of the operations (R24 to R26, R66, R78, R216) and of the frames (R98, R107). -/

namespace Sys2Proof.Machine

/-- `LEN` as a count (R24). -/
def State.count (s : State) : Nat := s.len.toNat

/-- `LEN >> 1`: the number of whole digit pairs of the text (R66). -/
def State.nbytes (s : State) : Nat := s.count / 2

/-- The hex text operand `RXBUF[0..LEN)` of `HEXDEC`, `CRC16` and `PARSE` (R24). -/
def State.textOperand (s : State) : List Byte := s.memRead .rxbuf 0 s.count

/-- The byte operand `SCR[0..LEN)` of `HEXENC` (R24). -/
def State.bytesOperand (s : State) : List Byte := s.memRead .scr 0 s.count

/-- `signed_16(VAL)` (R10, R25). -/
def State.signedVal (s : State) : Int := s.val.toInt

/-- The setting `SEL` selects; 6 and 7 select nothing (R26). -/
def State.setting (s : State) : Option Setting := settingOfCode (s.sel.setWidth 8)

/-- Step 3 of R215 for an operation on text: `LEN` is within `RX_CAP`. -/
def State.textFits (s : State) : Bool := decide (s.count ≤ Config.rxCap)

/-- Step 3 of R215 for `HEXENC`: `LEN` is within `SCR_CAP`. -/
def State.bytesFit (s : State) : Bool := decide (s.count ≤ Config.scrCap)

/-! ## The candidate frame at the cursors -/

/-- Frame byte `k` of the candidate at the cursors: `SCR[BCUR + k]` (R78). -/
def State.frameByte (s : State) (k : Nat) : Byte := s.peek .scr (s.bcur.toNat + k)

/-- The decoded bytes from the byte cursor to the end of the text (R172). -/
def State.remainingBytes (s : State) : List Byte :=
  s.memRead .scr s.bcur.toNat (s.nbytes - s.bcur.toNat)

/-- The characters that remain: `LEN - HCUR` (R170). -/
def State.remainingChars (s : State) : Nat := s.count - s.hcur.toNat

/-- The computed checksum of the candidate's first `n` bytes, over the hex text (R173; log 14). -/
def State.textCrc (s : State) (n : Nat) : Word :=
  crcText s.lowercase (s.memRead .rxbuf s.hcur.toNat (2 * n))

/-- The attributes of a decoded frame (R107). -/
structure FrameView where
  magic : Byte × Byte
  lengthByte : Byte
  devId : Option Byte
  devType : Option Byte
  kind : Option Byte
  payload : List Byte
  received : Word
  computed : Word
  deriving DecidableEq, Repr

/-- `frame_at(b)` (R107): an attribute exists only where its byte lies inside the body. -/
def State.frameAt (s : State) (b : Nat) : FrameView :=
  let l := (s.peek .scr (b + 2)).toNat
  { magic := (s.peek .scr b, s.peek .scr (b + 1))
    lengthByte := s.peek .scr (b + 2)
    devId := if 3 ≤ l then some (s.peek .scr (b + 3)) else none
    devType := if 4 ≤ l then some (s.peek .scr (b + 4)) else none
    kind := if 5 ≤ l then some (s.peek .scr (b + 5)) else none
    payload := if 6 ≤ l then s.memRead .scr (b + 6) (l - 5) else []
    received := be16 (s.peek .scr (b + l + 1)) (s.peek .scr (b + l + 2))
    computed := crcBytes (s.memRead .scr b (l + 1)) }

/-! ## The register space -/

/-- The value of a register of space `REG`, zero-extended to 16 bits (R8, R21); `CMD` and reserved indices read 0. -/
def State.readReg (s : State) : Nat → Word
  | 1 => s.status.setWidth 16
  | 2 => s.len.setWidth 16
  | 3 => s.val
  | 4 => s.sel.setWidth 16
  | 5 => s.crc
  | 6 => s.outlen.setWidth 16
  | 7 => s.frames.setWidth 16
  | 8 => s.notifs.setWidth 16
  | 9 => s.ignored.setWidth 16
  | 10 => s.stopwhy.setWidth 16
  | 11 => s.hcur.setWidth 16
  | 12 => s.bcur.setWidth 16
  | 16 => (knownWord s.ds.power).setWidth 16
  | 17 => (knownWord s.ds.channel).setWidth 16
  | 18 => (knownWord s.ds.bright).setWidth 16
  | 19 => (knownWord s.ds.cct).setWidth 16
  | 20 => (knownWord s.ds.hue).setWidth 16
  | 21 => (knownWord s.ds.sat).setWidth 16
  | _ => 0

/-- The value a host read returns (R67): a buffer byte is zero-extended, an address out of range reads 0. -/
def State.hostRead (s : State) : Space → Nat → Word
  | .reg, i => s.readReg i
  | .buf b, a => if a < b.capacity then (s.peek b a).setWidth 16 else 0

end Sys2Proof.Machine
end

