-- ==== Sys2Proof/Machine/Builder.lean ====
section
/-! DEFINITION. The meaning of `BUILDSET` (spec/43_frame_builder.md). -/

namespace Sys2Proof.Machine

/-- `lo(sel)` (R201). -/
def clampLo : Setting → Int
  | .power => 0
  | .channel => 1
  | .bright => 0
  | .cct => 32
  | .hue => 0
  | .sat => 0

/-- `hi(sel)` (R201). -/
def clampHi : Setting → Int
  | .power => 1
  | .channel => 12
  | .bright => 100
  | .cct => 56
  | .hue => 72
  | .sat => 100

/-- `clamp(sel, v)` (R201); the comparison is a signed one. -/
def clamp (f : Setting) (v : Int) : Int :=
  if v < clampLo f then clampLo f else if clampHi f < v then clampHi f else v

/-- The clamped value as the frame's unsigned byte (R201). -/
def clampByte (f : Setting) (v : Int) : Byte := BitVec.ofInt 8 (clamp f v)

/-- The ten body bytes of R202. -/
def setBody (f : Setting) (w : Byte) : List Byte :=
  [Config.magic0, Config.magic1, Config.cmdLen, Config.cmdDevId, Config.cmdDevType, Config.kindSetcmd, 0x00,
    fieldCode f, Config.cmdArgc, w]

/-- `BUILDSET` (R203): the text of the body, then its checksum as four characters. -/
def execBuildset (s : State) : Host.Outcome State Fault Refusal :=
  match s.setting with
  | some f =>
    let body := setBody f (clampByte f s.signedVal)
    let c := crcBytes body
    .next ({ s.memWrite .txbuf 0 (encBytes body ++ encBe16 c) with crc := c, outlen := 24 } : State).emitDone
  | none => .next (s.refuse .selRange)

end Sys2Proof.Machine
end

