-- ==== Sys2Proof/Machine/CrcOps.lean ====
section
/-! DEFINITION. The meaning of `CRC16` (spec/41_crc.md R154). -/

namespace Sys2Proof.Machine

/-- `CRC16` (R154): the CRC of the text operand, always from `CRC_INIT`. -/
def execCrc16 (s : State) : Host.Outcome State Fault Refusal :=
  if s.textFits then .next ({ s with crc := crcText s.lowercase s.textOperand } : State).emitDone
  else .next (s.refuse .lenRange)

end Sys2Proof.Machine
end

