-- ==== Sys2Proof/Machine/HexOps.lean ====
section
/-! DEFINITION. The meanings of `HEXDEC`, `HEXENC` and `HEXENC16` (spec/40_hex_codec.md). -/

namespace Sys2Proof.Machine

/-- `HEXDEC` (R135). -/
def execHexdec (s : State) : Host.Outcome State Fault Refusal :=
  if s.textFits then .next s.decodeText.emitDone else .next (s.refuse .lenRange)

/-- `HEXENC` (R136). -/
def execHexenc (s : State) : Host.Outcome State Fault Refusal :=
  if s.bytesFit then
    .next ({ s.memWrite .txbuf 0 (encBytes s.bytesOperand) with outlen := s.len <<< 1 } : State).emitDone
  else .next (s.refuse .lenRange)

/-- `HEXENC16` (R137). -/
def execHexenc16 (s : State) : Host.Outcome State Fault Refusal :=
  .next ({ s.memWrite .txbuf 0 (encBe16 s.val) with outlen := 4 } : State).emitDone

end Sys2Proof.Machine
end

