-- ==== Sys2Proof/Machine/Parser.lean ====
section
/-! DEFINITION. The meaning of `PARSE`, which starts the frame loop, and of the four kinds of frame it then runs, one step
each (spec/42_frame_parser.md; log 1). -/

namespace Sys2Proof.Machine

/-- `PARSE` (R166) up to its loop: the range check, the initialisation of R167, step 1 of R168. The sequencer is then
in the loop, and each following iteration examines the candidate frame at the cursors (R169, R187). -/
def execParse (s : State) : Host.Outcome State Fault Refusal :=
  if s.textFits then .next s.clearParse.decodeText.enterLoop
  else .next (s.refuse .lenRange)

/-- R174 and R183 for a frame that updates DeviceState: count, update, notify, advance, in this order. -/
def State.acceptUpdate (s : State) (d : DeviceState) (l : Nat) : State :=
  ((s.countFrame.setDs d).emitNotify).advance l

/-- R174 and R182 for a frame that is ignored: count, count as ignored, advance. -/
def State.acceptIgnored (s : State) (l : Nat) : State :=
  s.countFrame.countIgnored.advance l

/-- A validated `STATUS` frame (R179): the six fields, unchanged and unchecked, all together. -/
def execStatus (_devId _devType power channel bright cct hue sat : Byte) (surplus : List Byte) (s : State) :
    Host.Outcome State Fault Refusal :=
  .next (s.acceptUpdate ⟨some power, some channel, some bright, some cct, some hue, some sat⟩ (11 + surplus.length))

/-- A validated `SETACK` frame (R180): one field; device ID, device type, reserved byte and argument count are not
examined (R104). -/
def execSetack (_devId _devType _reserved : Byte) (field : Setting) (_argc value : Byte) (surplus : List Byte)
    (s : State) : Host.Outcome State Fault Refusal :=
  .next (s.acceptUpdate (s.ds.set field value) (9 + surplus.length))

/-- A validated `SETCMD` frame (R182): outbound only, ignored when received. -/
def execSetcmd (_devId _devType : Byte) (payload : List Byte) (s : State) : Host.Outcome State Fault Refusal :=
  .next (s.acceptIgnored (5 + payload.length))

/-- Any other validated frame (R178, R181, R182): ignored. -/
def execOther (body : List Byte) (s : State) : Host.Outcome State Fault Refusal :=
  .next (s.acceptIgnored (2 + body.length))

end Sys2Proof.Machine
end

