-- ==== Sys2Proof/Machine/System.lean ====
section
/-! DEFINITION. The meanings of `NOP` and `DSCLR` (spec/44_system_ops.md). -/

namespace Sys2Proof.Machine

/-- `NOP` (R219): its only effect is one `done` pulse. -/
def execNop (s : State) : Host.Outcome State Fault Refusal := .next s.emitDone

/-- `DSCLR` (R220): all of DeviceState to unknown; no notification. -/
def execDsclr (s : State) : Host.Outcome State Fault Refusal := .next (s.setDs .unknown).emitDone

end Sys2Proof.Machine
end

