-- ==== Sys2Proof/Machine/Dispatch.lean ====
section
/-! DEFINITION. One arm per constructor of `Instr`, each a direct call of its meaning. -/

namespace Sys2Proof.Machine

def exec (i : Instr) (s : State) : Host.Outcome State Fault Refusal :=
  match i with
  | .nop => Sys2Proof.Machine.execNop s
  | .hexdec => Sys2Proof.Machine.execHexdec s
  | .hexenc => Sys2Proof.Machine.execHexenc s
  | .hexenc16 => Sys2Proof.Machine.execHexenc16 s
  | .crc16 => Sys2Proof.Machine.execCrc16 s
  | .parse => Sys2Proof.Machine.execParse s
  | .buildset => Sys2Proof.Machine.execBuildset s
  | .dsclr => Sys2Proof.Machine.execDsclr s
  | .status devId devType power channel bright cct hue sat surplus => Sys2Proof.Machine.execStatus devId devType power channel bright cct hue sat surplus s
  | .setack devId devType reserved field argc value surplus => Sys2Proof.Machine.execSetack devId devType reserved field argc value surplus s
  | .setcmd devId devType payload => Sys2Proof.Machine.execSetcmd devId devType payload s
  | .other body => Sys2Proof.Machine.execOther body s

end Sys2Proof.Machine
end

