-- ==== Sys2Proof/Machine/Fetch.lean ====
section
/-! DEFINITION. Where instructions come from: a command word written to `CMD`, which is accepted or refused (R215) and
then executed by the running sequencer, and the candidate frame at the parser's cursors (R169). -/

namespace Sys2Proof.Machine

/-- The causes of a refusal by operand (step 3 of R215, the table of R231); a frame is never refused. -/
def refusalOf (i : Instr) (s : State) : Option RefuseCode :=
  match i with
  | .hexdec => if s.textFits then none else some .lenRange
  | .hexenc => if s.bytesFit then none else some .lenRange
  | .crc16 => if s.textFits then none else some .lenRange
  | .parse => if s.textFits then none else some .lenRange
  | .buildset => if s.setting.isSome then none else some .selRange
  | .nop => none
  | .hexenc16 => none
  | .dsclr => none
  | .status .. => none
  | .setack .. => none
  | .setcmd .. => none
  | .other .. => none

/-- Command acceptance (R215): step 1 refuses a word with reserved bits set, step 3 an operand out of range; otherwise the
sequencer starts to run the operation. -/
def acceptCommand (w : Word) (s : State) : Host.Outcome State Fault Refusal :=
  match decodeCommand w with
  | .ok i =>
    match refusalOf i s with
    | some c => .next (s.refuse c)
    | none => .next (s.start w)
  | .error _ => .next (s.refuse .illegalCmd)

/-- Step 4 of R215: the running sequencer executes the accepted command. Its operands are those of the acceptance, so its
own range check passes (R215, R216). -/
def runCommand (w : Word) (s : State) : Host.Outcome State Fault Refusal :=
  match decodeCommand w with
  | .ok i => exec i s
  | .error _ => .next (s.refuse .illegalCmd)

/-- The four checks of R169 on the candidate at the cursors, with the checksum computed over the hex text (R173). -/
def State.examine (s : State) : Except StopReason (Instr × Word) :=
  decodeFrameWith s.remainingChars s.textCrc s.remainingBytes

/-- One iteration of the loop (R169, R187): a failed check ends the `PARSE`; otherwise `CRC` takes the computed checksum
(R173) and the frame is executed. -/
def runFrame (s : State) : Host.Outcome State Fault Refusal :=
  match s.examine with
  | .ok (i, c) => exec i { s with crc := c }
  | .error r => .next (s.stopParse r)

/-- The running sequencer goes on with what it is at (R45). -/
def advanceJob (job : Job) (s : State) : Host.Outcome State Fault Refusal :=
  match job with
  | .operation w => runCommand w s
  | .frames => runFrame s

end Sys2Proof.Machine
end

