-- ==== Sys2Proof/Machine/HostPort.lean ====
section
/-! DEFINITION. The host port: what a transaction does when it takes effect (R8, R21, R67), and the order in which the
block meets its outside (R70, R71, R260). -/

namespace Sys2Proof.Machine

/-- A host write in space `REG` (R21 to R26, R221): indices without `W` and reserved indices ignore it. -/
def hostWriteReg (i : Nat) (v : Word) (s : State) : Host.Outcome State Fault Refusal :=
  match i with
  | 0 => acceptCommand v s
  | 1 => .next (s.clearStatus v)
  | 2 => .next { s with len := v.setWidth 12 }
  | 3 => .next { s with val := v }
  | 4 => .next { s with sel := v.setWidth 3 }
  | _ => .next s

/-- A host write in a buffer (R67): `value[7:0]` is stored; `TXBUF` and addresses out of range ignore it. -/
def State.hostWriteBuf (s : State) (b : Buffer) (a : Nat) (v : Word) : State :=
  match b with
  | .rxbuf => if a < b.capacity then s.memWrite b a [v.setWidth 8] else s
  | .scr => if a < b.capacity then s.memWrite b a [v.setWidth 8] else s
  | .txbuf => s

/-- A host transaction takes effect (R8, R71). -/
def perform (t : HostTxn) (s : State) : Host.Outcome State Fault Refusal :=
  match t with
  | .write .reg i v => hostWriteReg i v s
  | .write (.buf b) a v => .next (s.hostWriteBuf b a v)
  | .read sp a => .next (s.returnValue (s.hostRead sp a))

/-- A step while the sequencer is `running` (log 1, log 3): `rst` abandons the operation and a held transaction (R260); a
transaction the host presents is held (R70); otherwise the sequencer goes on. While one transaction is held the host
presents no other (R8), so a further one waits outside. -/
def stepRunning (job : Job) (s : State) : Host.Outcome State Fault Refusal :=
  match s.inputs with
  | .rst :: rest => .next (s.resetWith rest)
  | .quiet :: rest => advanceJob job { s with inputs := rest }
  | .txn t :: rest =>
    match s.held with
    | none => .next { s with held := some t, inputs := rest }
    | some _ => advanceJob job s
  | [] => advanceJob job s

/-- A step of an idle block with a transaction held: `rst` abandons it (R260), otherwise it takes effect, on the state the
finished operation left (R70). -/
def stepHeld (t : HostTxn) (s : State) : Host.Outcome State Fault Refusal :=
  match s.inputs with
  | .rst :: rest => .next (s.resetWith rest)
  | _ => perform t { s with held := none }

/-- A step of an idle block with nothing held: the next input takes effect. With nothing to do the block holds its state
(R252). -/
def stepFree (s : State) : Host.Outcome State Fault Refusal :=
  match s.inputs with
  | .rst :: rest => .next (s.resetWith rest)
  | .quiet :: rest => .next { s with inputs := rest }
  | .txn t :: rest => perform t { s with inputs := rest }
  | [] => .next s

/-- One step of the block. -/
def stepBlock (s : State) : Host.Outcome State Fault Refusal :=
  match s.phase with
  | .running job => stepRunning job s
  | .idle =>
    match s.held with
    | some t => stepHeld t s
    | none => stepFree s

/-! ## Placing an instruction where the next step finds it (log 12) -/

/-- The sequencer is running with exactly this command to execute, and nothing comes in from outside during the step. -/
def State.placeCommand (s : State) (w : Word) : State :=
  { s.start w with held := none, inputs := .quiet :: s.inputs }

/-- The frame loop is at exactly this frame: its bytes in `SCR`, its text in `RXBUF`, both from index 0, `LEN` its length,
and nothing comes in from outside during the step. -/
def State.placeFrame (s : State) (bytes : List Byte) : State :=
  { (s.memWrite .scr 0 bytes).memWrite .rxbuf 0 (encBytes bytes) with
    phase := .running .frames
    hcur := 0
    bcur := 0
    len := BitVec.ofNat 12 (2 * bytes.length)
    inputs := .quiet :: s.inputs }

/-- Place what a row's bits stand for. -/
def State.place (s : State) : Encoded → State
  | .command w => s.placeCommand w
  | .frame bytes => s.placeFrame bytes

end Sys2Proof.Machine
end

