-- ==== Sys2Proof/Machine/Step.lean ====
section
/-! DEFINITION. The step, and where the host's questions place an instruction. -/

namespace Sys2Proof.Machine

/-- One step of the block (R71, R187; log 1): a host transaction, the operation of an accepted command, one iteration of
the frame loop, or a reset. -/
def step (s : State) : Host.Outcome State Fault Refusal := stepBlock s

/-- The state whose next step fetches and runs the instruction of these bits (log 12). -/
def State.withFetchWord (s : State) (nbits w : Nat) : State := s.place (encodedOfTableWord nbits w)

end Sys2Proof.Machine
end

