-- ==== Sys2Proof/Machine/ParseText.lean ====
section
/-! DEFINITION. `PARSE` as one function of the text and of DeviceState (the big-step form of R187), written apart from the
machine's step: what the machine's run of a `PARSE` is compared with. -/

namespace Sys2Proof.Machine

/-- What one `PARSE` leaves behind (R165). -/
structure ParseResult where
  frames : Nat
  notifs : Nat
  ignored : Nat
  stop : BitVec 3
  /-- `BCUR`: bytes consumed; `HCUR` is twice this (R35). -/
  consumed : Nat
  /-- The last computed checksum, if any was computed (R27). -/
  crc : Option Word
  ds : DeviceState
  /-- The notification snapshots, oldest first (R183). -/
  events : List DeviceState
  deriving DecidableEq, Repr

/-- What a validated frame makes of DeviceState: `none` when it is ignored (R176). -/
def frameUpdate (i : Instr) (d : DeviceState) : Option DeviceState :=
  match i with
  | .status _ _ p c b t h s _ => some ⟨some p, some c, some b, some t, some h, some s⟩
  | .setack _ _ _ f _ v _ => some (d.set f v)
  | .setcmd .. => none
  | .other .. => none
  | .nop => none
  | .hexdec => none
  | .hexenc => none
  | .hexenc16 => none
  | .crc16 => none
  | .parse => none
  | .buildset => none
  | .dsclr => none

/-- The result of a loop that stops at once (R169). -/
def parseStopped (r : StopReason) (d : DeviceState) : ParseResult where
  frames := 0
  notifs := 0
  ignored := 0
  stop := stopNumber r
  consumed := 0
  crc := match r with
    | .badChecksum c => some c
    | .shortText => none
    | .badMagic => none
    | .badLength => none
  ds := d
  events := []

/-- One validated frame in front of the rest of the loop (R174, R183): `u` its update if it has one. -/
def ParseResult.after (u : Option DeviceState) (l : Nat) (c : Word) (rest : ParseResult) : ParseResult where
  frames := rest.frames + 1
  notifs := rest.notifs + (if u.isSome then 1 else 0)
  ignored := rest.ignored + (if u.isSome then 0 else 1)
  stop := rest.stop
  consumed := rest.consumed + (3 + l)
  crc := some (rest.crc.getD c)
  ds := rest.ds
  events := u.toList ++ rest.events

/-- The frame loop on a text (R166): `fuel` bounds the iterations. -/
def parseLoop (lc : LowercaseHex) : Nat → List Byte → DeviceState → ParseResult
  | 0, _, d => parseStopped .shortText d
  | fuel + 1, t, d =>
    match decodeFrameWith t.length (fun n => crcText lc (t.take (2 * n))) (decText lc t) with
    | .error r => parseStopped r d
    | .ok (i, c) =>
      ParseResult.after (frameUpdate i d) i.lengthByte c
        (parseLoop lc fuel (t.drop (2 * (3 + i.lengthByte))) ((frameUpdate i d).getD d))

/-- `PARSE` of a text (R187): more iterations than characters are never needed, since each frame takes some. -/
def parseText (lc : LowercaseHex) (t : List Byte) (d : DeviceState) : ParseResult :=
  parseLoop lc (t.length + 1) t d

/-- The state an accepted `PARSE` ends in (R165): the operands and the text as they were, the results in their
registers. -/
def State.afterParse (s : State) : State :=
  let r := parseText s.lowercase s.textOperand s.ds
  { s.decodeText with
    frames := BitVec.ofNat 8 r.frames
    notifs := BitVec.ofNat 8 r.notifs
    ignored := BitVec.ofNat 8 r.ignored
    stopwhy := r.stop
    hcur := BitVec.ofNat 12 (2 * r.consumed)
    bcur := BitVec.ofNat 11 r.consumed
    crc := r.crc.getD 0
    ds := r.ds
    ntrace := s.ntrace ++ r.events
    ptrace := s.ptrace ++ List.replicate r.notifs .notify ++ [.done]
    phase := .idle }

end Sys2Proof.Machine
end

