-- ==== Sys2Proof/Safety.lean ====
section
/-! DEFINITION. What a good state is: the invariants the spec states of the block, in the terms statements use. -/

namespace Sys2Proof.Machine

/-- What holds at every candidate of a running `PARSE` (R35, R61, R66, R167, R168). -/
structure Running (s : State) : Prop where
  /-- The text is within capacity (R231). -/
  lenFits : s.len.toNat ≤ Config.rxCap
  /-- The byte cursor has not passed the decoded bytes (R35). -/
  cursorFits : s.bcur.toNat ≤ s.nbytes
  /-- `OUTLEN` is the number of decoded bytes (R168). -/
  outlenIs : s.outlen.toNat = s.nbytes
  /-- No stop has been recorded yet (R167). -/
  stopZero : s.stopwhy = 0
  /-- The two views of the datagram agree (R61). -/
  decoded : ∀ i, i < s.nbytes →
    s.peek .scr i = hexbyte s.lowercase (s.peek .rxbuf (2 * i)) (s.peek .rxbuf (2 * i + 1))

/-- What holds of every state of the block after a reset. -/
structure Inv (s : State) : Prop where
  /-- The buffers keep their canonical form (R60; log 5). -/
  rxbufWf : s.rxbuf.wf Config.rxCap = true
  scrWf : s.scr.wf Config.scrCap = true
  txbufWf : s.txbuf.wf Config.txCap = true
  /-- `ERRCODE` is 0 when `ERR` is 0, and otherwise one of the three codes (R23, R231). -/
  statusLegal : s.status = 0 ∨ ∃ c, s.status = statusOfRefusal c
  /-- Codes 5 to 7 are never produced (R32). -/
  stopLegal : s.stopwhy.toNat ≤ 4
  /-- `FRAMES = NOTIFS + IGNORED` (R33). -/
  counters : s.frames.toNat = s.notifs.toNat + s.ignored.toNat
  /-- A validated frame has at least 5 bytes (R175), so `FRAMES` is at most 204 (R33). -/
  fiveBytes : 5 * s.frames.toNat ≤ s.bcur.toNat
  /-- `HCUR = 2 × BCUR` (R35). -/
  lockStep : s.hcur.toNat = 2 * s.bcur.toNat
  /-- `BCUR` is at most 1024 (R34). -/
  cursorCap : s.bcur.toNat ≤ Config.scrCap
  /-- The largest `OUTLEN` is 2048 (R28). -/
  outlenCap : s.outlen.toNat ≤ Config.txCap
  /-- One trace entry per `notify` pulse (R44, R240). -/
  traceCount : s.ntrace.length = s.ptrace.count .notify
  /-- The notifications of the last `PARSE` are in the trace (R30, R44). -/
  notifsTraced : s.notifs.toNat ≤ s.ntrace.length
  /-- A running operation is one that was accepted: its word is a command word and its operands are in range (R215). -/
  accepted : ∀ w, s.phase = .running (.operation w) → ∃ i, decodeCommand w = .ok i ∧ refusalOf i s = none
  /-- What the frame loop of a running `PARSE` maintains. -/
  inLoop : s.phase = .running .frames → Running s

/-- The candidate frame at the cursors passes the four checks of R169, with length byte `l` (R170 to R173). -/
structure Candidate (s : State) (l : Nat) : Prop where
  /-- Check 1 (R170). -/
  enoughText : s.hcur.toNat + 6 ≤ s.len.toNat
  /-- Check 2 (R171). -/
  magicFirst : s.frameByte 0 = 0x4C
  magicSecond : s.frameByte 1 = 0x54
  /-- The length byte (R172). -/
  lengthIs : (s.frameByte 2).toNat = l
  /-- Check 3 (R172). -/
  frameFits : s.bcur.toNat + 3 + l ≤ s.len.toNat / 2
  /-- Check 4 (R173). -/
  checksumMatches : s.textCrc (l + 1) = be16 (s.frameByte (l + 1)) (s.frameByte (l + 2))

/-- In the next step the host's transaction `t` takes effect (R8, R70), and `u` is the state without it: the block is
idle, and `t` is the next input or was held. -/
def Acts (s : State) (t : HostTxn) (u : State) : Prop :=
  s.phase = .idle ∧
  ((s.held = none ∧ ∃ rest, s.inputs = .txn t :: rest ∧ u = { s with inputs := rest }) ∨
   (s.held = some t ∧ (∀ rest, s.inputs ≠ .rst :: rest) ∧ u = { s with held := none }))

/-- In the next step the running sequencer goes on with `job` (R45, R70), and `u` is the state it goes on from: nothing
comes in from outside, or a quiet interval passes, or the host's next transaction waits behind the one that is held. -/
def Advances (s : State) (job : Job) (u : State) : Prop :=
  s.phase = .running job ∧
  ((s.inputs = [] ∧ u = s) ∨
   (∃ rest, s.inputs = .quiet :: rest ∧ u = { s with inputs := rest }) ∨
   (∃ t rest x, s.inputs = .txn t :: rest ∧ s.held = some x ∧ u = s))

/-- A state from which the block goes on: its step answers a next state, neither a fault nor a refusal (R230, R270). -/
def Safe (s : State) : Prop := ∃ t, step s = .next t

end Sys2Proof.Machine
end

