-- ==== Sys2Proof/Certificates/Slice0/Obligations.lean ====
section
/-! DEFINITION. The statements for the provers, by the parts of the spec: reset, encodings, what a step runs, the
operations, the frames, the laws of the codec and of the checksum, refusals, frames of the instructions, the host port,
noninterference. -/

open Sys2Proof Sys2Proof.Machine

/-- State.reset has every register 0, all six DeviceState fields unknown, an empty notification trace, the sequencer
idle with busy low and no strobe pulsed, and every buffer location holds the free byte that the model's constant
gives for this reset (the model's form of an unspecified byte, log 4: it holds for every value of the constant;
strobes as entries of ptrace are the model's choice, log 9). (R48, R260, notes/assumptions/4.md,
notes/assumptions/9.md.) -/
def Obligations.ResetGivesTheStatedValues : Prop :=
  (State.reset.status = 0 ∧ State.reset.len = 0 ∧ State.reset.val = 0 ∧ State.reset.sel = 0 ∧ State.reset.crc = 0 ∧
    State.reset.outlen = 0 ∧ State.reset.frames = 0 ∧ State.reset.notifs = 0 ∧ State.reset.ignored = 0 ∧
    State.reset.stopwhy = 0 ∧ State.reset.hcur = 0 ∧ State.reset.bcur = 0) ∧
  State.reset.ds = ⟨none, none, none, none, none, none⟩ ∧ State.reset.ntrace = [] ∧
  State.reset.phase = .idle ∧ State.reset.busy = false ∧ State.reset.ptrace = [] ∧
  ∀ b a, State.reset.peek b a = Config.resetByte State.reset.epoch b a

/-- When rst is the next input, whatever the block is doing, the step gives the reset values; no Done and no Notify is
emitted, so a running operation is abandoned; a held write has no effect, a held read returns some value, every
buffer location holds a free byte of the new epoch, and the parameter LOWERCASE_HEX and the later inputs stay. The
model's own: the free bytes and the epoch (log 4), the parameter in the state (log 6), the inputs that go on (logs
2, 7), events as entries of ptrace (logs 8, 9), a reset between two steps (log 16). (R260, R48,
notes/assumptions/2.md, notes/assumptions/4.md, notes/assumptions/6.md, notes/assumptions/7.md,
notes/assumptions/8.md, notes/assumptions/9.md, notes/assumptions/16.md.) -/
def Obligations.ResetAbandonsWhatRuns : Prop :=
  ∀ (s : State) (rest : List Input), s.inputs = .rst :: rest →
    ∃ t, step s = .next t ∧
      (t.status = 0 ∧ t.len = 0 ∧ t.val = 0 ∧ t.sel = 0 ∧ t.crc = 0 ∧ t.outlen = 0 ∧ t.frames = 0 ∧ t.notifs = 0 ∧
        t.ignored = 0 ∧ t.stopwhy = 0 ∧ t.hcur = 0 ∧ t.bcur = 0) ∧
      t.ds = .unknown ∧ t.ntrace = [] ∧ t.phase = .idle ∧ t.busy = false ∧ t.held = none ∧
      PortEvent.done ∉ t.ptrace ∧ PortEvent.notify ∉ t.ptrace ∧
      (∀ sp a v, s.held = some (.write sp a v) → t.ptrace = []) ∧
      (∀ sp a, s.held = some (.read sp a) → ∃ v, t.ptrace = [.returned v]) ∧
      (∀ b a, t.peek b a = Config.resetByte (s.epoch + 1) b a) ∧
      t.inputs = rest ∧ t.lowercase = s.lowercase

/-- Inv holds of State.reset. (R48, R23, R33, R35.) -/
def Obligations.ResetStateIsGood : Prop :=
  Inv State.reset

/-- For every state s with Inv s, if step s answers next t then Inv t: the buffers keep their canonical form, STATUS
holds a legal code, STOPWHY is at most 4, FRAMES = NOTIFS + IGNORED with 5·FRAMES ≤ BCUR, HCUR = 2·BCUR, BCUR ≤
1024, OUTLEN ≤ 2048, the traces agree, a running operation is one that was accepted with its operands in range, and
a running PARSE keeps its cursors inside the text and SCR equal to the decoded text. (R23, R28, R32, R33, R34, R35,
R44, R61, R172, R175, R215, R216.) -/
def Obligations.EveryStepKeepsTheInvariant : Prop :=
  ∀ s t : State, Inv s → step s = .next t → Inv t

/-- For every well-formed instruction, operation or frame, with every operand at every value: decode (encode i) = i.
(R90, R91, R95, R96, R97, R98, R100, R101, R102, R106.) -/
def Obligations.DecodeUndoesEncode : Prop :=
  ∀ i : Instr, i.wf = true → decode (encode i) = .ok i

/-- If decodeFrame bytes answers i, then i is a well-formed frame, its length byte is byte 2, and its encoding is
exactly the first 3 + L bytes. (R95, R96, R97, R105, R106.) -/
def Obligations.DecodedFrameIsItsEncoding : Prop :=
  ∀ (bytes : List Byte) (i : Instr), decodeFrame bytes = .ok i →
    i.wf = true ∧ i.isFrame = true ∧ i.lengthByte = (bytes.getD 2 0).toNat ∧ 3 + i.lengthByte ≤ bytes.length ∧
      encode i = .frame (bytes.take (3 + i.lengthByte))

/-- For every 16-bit word w and instruction i: decodeCommand w = i exactly when encode i is the command word w; and the
table's row that w matches under its mask has that instruction's mnemonic, or there is no row when w decodes to
nothing. (R90, R91, R92, R106.) -/
def Obligations.CommandWordsAreExactlyTheEightCodes : Prop :=
  (∀ (w : Word) (i : Instr), decodeCommand w = .ok i ↔ encode i = .command w) ∧
  ∀ w : Word, selectCommandRow w =
    match decodeCommand w with
    | .ok i => some i.mnemonic
    | .error _ => none

/-- The eight command words of R91, the source's two frames of R108 and the vectors ST, ACK and MIN of the test vectors
decode to the instructions they stand for. (R91, R108, 95_test_vectors.md section 4.) -/
def Obligations.WrittenOutWordsDecode : Prop :=
  [0x0000, 0x0001, 0x0002, 0x0003, 0x0004, 0x0005, 0x0006, 0x0007].map (fun w => decode (.command w)) =
      [.ok .nop, .ok .hexdec, .ok .hexenc, .ok .hexenc16, .ok .crc16, .ok .parse, .ok .buildset, .ok .dsclr] ∧
  decode (.frame [0x4C, 0x54, 0x09, 0x00, 0x30, 0x57, 0x00, 0x02, 0x01, 0x32, 0x4A, 0x8F]) =
      .ok (.setcmd 0x00 0x30 [0x00, 0x02, 0x01, 0x32]) ∧
  decode (.frame [0x4C, 0x54, 0x09, 0x00, 0x00, 0x53, 0x00, 0x00, 0x01, 0x00, 0x94, 0x74]) =
      .ok (.other [0x00, 0x00, 0x53, 0x00, 0x00, 0x01, 0x00]) ∧
  decode (.frame [0x4C, 0x54, 0x0B, 0x00, 0x30, 0x03, 0x01, 0x05, 0x32, 0x38, 0x24, 0x64, 0xC3, 0x3B]) =
      .ok (.status 0x00 0x30 0x01 0x05 0x32 0x38 0x24 0x64 []) ∧
  decode (.frame [0x4C, 0x54, 0x09, 0x00, 0x30, 0x02, 0x00, 0x02, 0x01, 0x4B, 0x93, 0x54]) =
      .ok (.setack 0x00 0x30 0x00 .bright 0x01 0x4B []) ∧
  decode (.frame [0x4C, 0x54, 0x02, 0x8A, 0xF5]) = .ok (.other [])

/-- For the bytes 0 to L of any frame (magic, length byte L ≥ 2, and L - 2 body bytes), the first row of the table that
matches its header by mask, match and min_L (R106) and whose extra_condition in the table holds (SETACK: byte 7 at
most 5, otherwise the frame falls to OTHER, R181) has the mnemonic of the instruction that the classification of
R176 gives. A set-acknowledge with a code above 5 matches the header of the row SETACK and is classified as OTHER.
Bytes outside the body count as 0 (log 11). (R106, R176, R178, R181, R182, opcode_table.json extra_condition,
notes/assumptions/11.md.) -/
def Obligations.TableRowsAgreeWithTheClasses : Prop :=
  (∀ (l : Byte) (tail : List Byte), l.toNat = tail.length + 2 →
    selectRow (0x4C :: 0x54 :: l :: tail) = some (classify tail).mnemonic) ∧
  ∀ (l devId devType r code argc value : Byte) (surplus : List Byte), l.toNat = surplus.length + 9 → 5 < code.toNat →
    (frameRows.find? (fun row => row.matchesHeader
      (0x4C :: 0x54 :: l :: devId :: devType :: 0x02 :: r :: code :: argc :: value :: surplus))).map (·.mnemonic) =
        some "SETACK" ∧
    classify (devId :: devType :: 0x02 :: r :: code :: argc :: value :: surplus) =
      .other (devId :: devType :: 0x02 :: r :: code :: argc :: value :: surplus)

/-- When the sequencer goes on with an accepted command word that decodes to i, the step is exec of i on the state it
goes on from; when it goes on with the frame loop and the checks accept the frame i with computed checksum c, the
step is exec of i on that state with CRC set to c. It goes on when nothing comes in, a quiet interval passes, or the
host's next transaction waits behind a held one (Advances). The step form is the model's: R187's small steps (log
1), R70's held transaction as a field (log 3), the input list (log 2). (R3, R45, R70, R169, R173, R187, R215,
notes/assumptions/1.md, notes/assumptions/2.md, notes/assumptions/3.md.) -/
def Obligations.StepRunsTheInstruction : Prop :=
  (∀ (s u : State) (w : Word) (i : Instr), Advances s (.operation w) u → decodeCommand w = .ok i →
      step s = exec i u) ∧
  (∀ (s u : State) (i : Instr) (c : Word), Advances s .frames u → s.examine = .ok (i, c) →
      step s = exec i { u with crc := c })

/-- When a write of w to CMD takes effect on state u, as the next input or after it was held: a word that decodes to i
whose operands are in range makes the sequencer run, with busy 1, and changes nothing else; one whose operands are
out of range is refused with the code of the cause, and the block stays idle; a word that decodes to nothing is
refused with ILLEGAL_CMD. With no rst and no transaction between, the step after an acceptance is exec of i. The
split of a command into these two steps is the model's (log 1). (R45, R71, R215, R232, notes/assumptions/1.md.) -/
def Obligations.CommandAcceptance : Prop :=
  ∀ (s u : State) (w : Word), Acts s (.write .reg 0 w) u →
    (∀ i, decodeCommand w = .ok i → refusalOf i u = none →
      step s = .next { u with phase := .running (.operation w) } ∧
      ({ u with phase := .running (.operation w) } : State).busy = true ∧
      ∀ v : State, Advances { u with phase := .running (.operation w) } (.operation w) v →
        step { u with phase := .running (.operation w) } = exec i v) ∧
    (∀ i c, decodeCommand w = .ok i → refusalOf i u = some c →
      step s = .next { u with status := statusOfRefusal c, ptrace := u.ptrace ++ [.done] } ∧ u.busy = false) ∧
    (∀ e, decodeCommand w = .error e →
      step s = .next { u with status := 0x3, ptrace := u.ptrace ++ [.done] } ∧ u.busy = false)

/-- If the step from an idle state answers a running one, a write of a command word to CMD took effect in it, the word
decodes, its operands are in range, and the running operation is that word's. If the step from a running state
answers an idle one, it was a reset, or the operation ended in it with its Done. A running state with a frame loop
comes only from PARSE or from the loop. (R45, R215, R232, R244, R245.) -/
def Obligations.OnlyAcceptedCommandsRun : Prop :=
  (∀ (s t : State) (job : Job), s.phase = .idle → step s = .next t → t.phase = .running job →
      ∃ (w : Word) (u : State) (i : Instr), Acts s (.write .reg 0 w) u ∧ decodeCommand w = .ok i ∧
        refusalOf i u = none ∧ job = .operation w ∧ t = { u with phase := .running (.operation w) }) ∧
  (∀ (s t : State) (job : Job), s.phase = .running job → step s = .next t → t.phase = .idle →
      (∃ rest, s.inputs = .rst :: rest ∧ t = s.resetWith rest) ∨
      (∃ u, Advances s job u ∧ t.ptrace = s.ptrace ++ [.done])) ∧
  (∀ (s t : State), step s = .next t → t.phase = .running .frames →
      s.phase = .running .frames ∨ s.phase = .running (.operation 0x0005))

/-- In a good state whose sequencer goes on with the frame loop, if the decoded bytes from BCUR on decode to a frame i
by the byte-level decoder (checksum over bytes), then i is well formed and step is exec of i on the state with CRC
the checksum of the frame's bytes 0 to L. (R74, R78, R169, R173, R187.) -/
def Obligations.StepRunsTheFrameInScratch : Prop :=
  ∀ (s u : State) (i : Instr), Inv s → Advances s .frames u → decodeFrame s.remainingBytes = .ok i →
    i.wf = true ∧ step s = exec i { u with crc := crcBytes (s.remainingBytes.take (i.lengthByte + 1)) }

/-- If the table word decodes to i, the next step after withFetchWord is exec of i: for a command word on the state
whose sequencer runs that accepted word with nothing held, for a frame header on the placed state with CRC the
computed checksum, which is the checksum of the frame's bytes 0 to L (the model's placement, log 12).
(30_encoding.md section 5, R106, R173, R215, notes/assumptions/12.md.) -/
def Obligations.FetchWordRunsTheDecodedInstruction : Prop :=
  (∀ (s : State) (w : Nat) (i : Instr), decodeTableWord 16 w = some i →
      step (s.withFetchWord 16 w) =
        exec i { s with phase := .running (.operation (BitVec.ofNat 16 w)), held := none }) ∧
  (∀ (s : State) (w : Nat) (i : Instr), decodeTableWord 48 w = some i →
      step (s.withFetchWord 48 w) =
        exec i { s.withFetchWord 48 w with inputs := s.inputs, crc := crcBytes (frameBody i) } ∧
      (s.withFetchWord 48 w).textCrc (i.lengthByte + 1) = crcBytes (frameBody i))

/-- When a write of such a word to CMD takes effect, as the next input or after it was held, the step sets STATUS to ERR
with ERRCODE 1, emits one Done, and changes nothing else; exactly the words from 8 on have such a bit (65528 of the
65536). (R92.) -/
def Obligations.ReservedBitsAreRefused : Prop :=
  (∀ (s u : State) (w : Word), w.extractLsb' 3 13 ≠ 0 → Acts s (.write .reg 0 w) u →
      step s = .next { u with status := 0x3, ptrace := u.ptrace ++ [.done] }) ∧
  ∀ w : Word, w.extractLsb' 3 13 ≠ 0 ↔ 8 ≤ w.toNat

/-- exec NOP answers the same state with one Done appended and the sequencer idle; its word is 0x0000; in particular ERR
is not cleared. (R219.) -/
def Obligations.NopOnlyPulsesDone : Prop :=
  decodeCommand 0x0000 = .ok .nop ∧
  ∀ s : State, exec .nop s = .next { s with phase := .idle, ptrace := s.ptrace ++ [.done] }

/-- With LEN at most 2048, SCR[i] is hexbyte of RXBUF[2i], RXBUF[2i+1] for i below LEN>>1, SCR above keeps its content,
OUTLEN is LEN>>1, one Done, the sequencer is idle, nothing else changes; with LEN above 2048 it is refused with code
2 and nothing else changes. Its word is 0x0001. (R135.) -/
def Obligations.HexdecDecodesTheText : Prop :=
  decodeCommand 0x0001 = .ok .hexdec ∧
  ∀ s : State,
    (2048 < s.len.toNat → exec .hexdec s = .next { s with status := 0x5, phase := .idle, ptrace := s.ptrace ++ [.done] }) ∧
    (s.len.toNat ≤ 2048 → ∃ t, exec .hexdec s = .next t ∧
      (∀ i, i < s.len.toNat / 2 →
        t.peek .scr i = hexbyte s.lowercase (s.peek .rxbuf (2 * i)) (s.peek .rxbuf (2 * i + 1))) ∧
      (∀ a, s.len.toNat / 2 ≤ a → t.peek .scr a = s.peek .scr a) ∧
      t.outlen.toNat = s.len.toNat / 2 ∧
      t = { s with scr := t.scr, outlen := t.outlen, phase := .idle, ptrace := s.ptrace ++ [.done] })

/-- With LEN at most 1024, TXBUF[2i] and TXBUF[2i+1] are the digits of the upper and lower nibble of SCR[i] for i below
LEN, TXBUF above 2·LEN keeps its content, OUTLEN is 2·LEN, one Done, the sequencer is idle, nothing else changes;
with LEN above 1024 it is refused with code 2. Its word is 0x0002. (R136.) -/
def Obligations.HexencEncodesTheBytes : Prop :=
  decodeCommand 0x0002 = .ok .hexenc ∧
  ∀ s : State,
    (1024 < s.len.toNat → exec .hexenc s = .next { s with status := 0x5, phase := .idle, ptrace := s.ptrace ++ [.done] }) ∧
    (s.len.toNat ≤ 1024 → ∃ t, exec .hexenc s = .next t ∧
      (∀ i, i < s.len.toNat →
        t.peek .txbuf (2 * i) = hexdigit (hiNib (s.peek .scr i)) ∧
        t.peek .txbuf (2 * i + 1) = hexdigit (loNib (s.peek .scr i))) ∧
      (∀ a, 2 * s.len.toNat ≤ a → t.peek .txbuf a = s.peek .txbuf a) ∧
      t.outlen.toNat = 2 * s.len.toNat ∧
      t = { s with txbuf := t.txbuf, outlen := t.outlen, phase := .idle, ptrace := s.ptrace ++ [.done] })

/-- TXBUF[0..4) takes the digits of VAL[15:12], VAL[11:8], VAL[7:4], VAL[3:0], TXBUF above keeps its content, OUTLEN is
4, one Done, the sequencer is idle, nothing else changes, in every state. Its word is 0x0003. (R137.) -/
def Obligations.Hexenc16WritesFourDigits : Prop :=
  decodeCommand 0x0003 = .ok .hexenc16 ∧
  ∀ s : State, ∃ t, exec .hexenc16 s = .next t ∧
    t.peek .txbuf 0 = hexdigit (s.val.extractLsb' 12 4) ∧ t.peek .txbuf 1 = hexdigit (s.val.extractLsb' 8 4) ∧
    t.peek .txbuf 2 = hexdigit (s.val.extractLsb' 4 4) ∧ t.peek .txbuf 3 = hexdigit (s.val.extractLsb' 0 4) ∧
    (∀ a, 4 ≤ a → t.peek .txbuf a = s.peek .txbuf a) ∧
    t = { s with txbuf := t.txbuf, outlen := 4, phase := .idle, ptrace := s.ptrace ++ [.done] }

/-- With LEN at most 2048, CRC is the fold of crc_step over hexbyte of RXBUF[2i], RXBUF[2i+1] for i from 0 to
(LEN>>1)-1, starting from 0, one Done, the sequencer is idle, nothing else changes; with LEN above 2048 it is
refused with code 2. Its word is 0x0004. (R154.) -/
def Obligations.Crc16FoldsTheText : Prop :=
  decodeCommand 0x0004 = .ok .crc16 ∧
  ∀ s : State,
    (2048 < s.len.toNat → exec .crc16 s = .next { s with status := 0x5, phase := .idle, ptrace := s.ptrace ++ [.done] }) ∧
    (s.len.toNat ≤ 2048 → exec .crc16 s = .next { s with
      crc := (List.range (s.len.toNat / 2)).foldl
        (fun r i => crcStep r (hexbyte s.lowercase (s.peek .rxbuf (2 * i)) (s.peek .rxbuf (2 * i + 1)))) 0
      phase := .idle, ptrace := s.ptrace ++ [.done] })

/-- With LEN at most 2048, exec PARSE answers a state in the frame loop with FRAMES, NOTIFS, IGNORED, STOPWHY, HCUR,
BCUR and CRC 0, SCR[i] = hexbyte of RXBUF[2i], RXBUF[2i+1] below LEN>>1 and unchanged above, OUTLEN = LEN>>1, and
nothing else changed: DeviceState and NTRACE are not cleared; with LEN above 2048 it is refused with code 2. (The
loop of R166 is the following steps, log 1; what it ends in is ParseRunsToItsResult.) (R167, R168, R231.) -/
def Obligations.ParseStartsFromCleanResults : Prop :=
  decodeCommand 0x0005 = .ok .parse ∧
  ∀ s : State,
    (2048 < s.len.toNat → exec .parse s = .next { s with status := 0x5, phase := .idle, ptrace := s.ptrace ++ [.done] }) ∧
    (s.len.toNat ≤ 2048 → ∃ t, exec .parse s = .next t ∧
      (∀ i, i < s.len.toNat / 2 →
        t.peek .scr i = hexbyte s.lowercase (s.peek .rxbuf (2 * i)) (s.peek .rxbuf (2 * i + 1))) ∧
      (∀ a, s.len.toNat / 2 ≤ a → t.peek .scr a = s.peek .scr a) ∧
      t.outlen.toNat = s.len.toNat / 2 ∧
      t = { s with scr := t.scr, outlen := t.outlen, frames := 0, notifs := 0, ignored := 0, stopwhy := 0,
                   hcur := 0, bcur := 0, crc := 0, phase := .running .frames })

/-- For every state with LEN at most 2048 and nothing coming in from outside: exec PARSE answers next s1, and 205 steps
from s1 end in the state whose FRAMES, NOTIFS, IGNORED, STOPWHY, HCUR, BCUR, CRC, DeviceState and notification
events are those of parseText of the text and the old DeviceState, with SCR and OUTLEN as decoded, one Done at the
end, and everything else as it was. From the host's write of 0x0005 to CMD as the only input it takes two steps
more. (The steps are the model's, log 1.) (R71, R165, R166, R184, R187, R215, notes/assumptions/1.md.) -/
def Obligations.ParseRunsToItsResult : Prop :=
  (∀ s : State, s.len.toNat ≤ 2048 → s.held = none → s.inputs = [] →
    ∃ s1, exec .parse s = .next s1 ∧ Host.Core.run Sys2Proof.core 205 s1 = .next s.afterParse) ∧
  ∀ s u : State, s.len.toNat ≤ 2048 → Acts s (.write .reg 0 0x0005) u → u.inputs = [] →
    Host.Core.run Sys2Proof.core 207 s = .next u.afterParse

/-- From every good state that is running an operation, PARSE in its loop included, for some k from 1 to 207 the run of
k steps answers a state that is idle. (A command takes one step, PARSE at most 205 more, and a transaction that
comes in to be held one; the steps are the model's, log 1.) (R184, R270, notes/assumptions/1.md.) -/
def Obligations.EveryOperationEnds : Prop :=
  ∀ (s : State) (job : Job), Inv s → s.phase = .running job →
    ∃ k t, 1 ≤ k ∧ k ≤ 207 ∧ Host.Core.run Sys2Proof.core k s = .next t ∧ t.phase = .idle

/-- For SEL the field code of a setting, TXBUF[0..24) is the text of the ten body bytes of R202 with the clamped value,
followed by the four digits of their checksum, TXBUF above keeps its content, CRC is the checksum, OUTLEN is 24, one
Done, the sequencer is idle, nothing else changes; SEL 6 or 7 is refused with code 3 and nothing else changes. Its
word is 0x0006. (R203.) -/
def Obligations.BuildsetBuildsTheFrame : Prop :=
  decodeCommand 0x0006 = .ok .buildset ∧
  ∀ s : State,
    ((s.sel = 6 ∨ s.sel = 7) → exec .buildset s = .next { s with status := 0x7, phase := .idle, ptrace := s.ptrace ++ [.done] }) ∧
    (∀ (f : Setting) (body : List Byte), s.sel = (fieldCode f).setWidth 3 →
      body = [0x4C, 0x54, 0x09, 0x00, 0x30, 0x57, 0x00, fieldCode f, 0x01, BitVec.ofInt 8 (clamp f s.val.toInt)] →
      ∃ t, exec .buildset s = .next t ∧
        t.memRead .txbuf 0 24 = encBytes body ++ encBe16 (crcBytes body) ∧
        crcText s.lowercase (encBytes body) = crcBytes body ∧
        (∀ a, 24 ≤ a → t.peek .txbuf a = s.peek .txbuf a) ∧
        t = { s with txbuf := t.txbuf, crc := crcBytes body, outlen := 24, phase := .idle,
                     ptrace := s.ptrace ++ [.done] })

/-- For every setting and value byte: the built bytes are the encoding of a SETCMD frame; their text has 24 characters;
PARSE of it gives one frame, ignored, stop code 1, 12 bytes consumed, DeviceState unchanged, no event; CRC over the
first 20 characters is the checksum and over all 24 is 0. (R202, R204, R182, R155.) -/
def Obligations.BuiltFrameValidatesAndIsIgnored : Prop :=
  ∀ (lc : LowercaseHex) (f : Setting) (w : Byte) (d : DeviceState) (text : List Byte),
    text = encBytes (setBody f w) ++ encBe16 (crcBytes (setBody f w)) →
    encode (.setcmd 0x00 0x30 [0x00, fieldCode f, 0x01, w]) = .frame (decText lc text) ∧ text.length = 24 ∧
    parseText lc text d =
      { frames := 1, notifs := 0, ignored := 1, stop := 1, consumed := 12, crc := some (crcBytes (setBody f w)),
        ds := d, events := [] } ∧
    crcText lc (text.take 20) = crcBytes (setBody f w) ∧ crcText lc text = 0

/-- clamp f v is lo if v < lo, hi if v > hi, else v, for the six ranges of R201; it lies in 0 to 100; the frame's value
byte is that number; brightness 150 gives 100 and hue -5 gives 0. (R201.) -/
def Obligations.ClampIsTheStatedRange : Prop :=
  (clampLo .power = 0 ∧ clampHi .power = 1 ∧ clampLo .channel = 1 ∧ clampHi .channel = 12 ∧ clampLo .bright = 0 ∧
    clampHi .bright = 100 ∧ clampLo .cct = 32 ∧ clampHi .cct = 56 ∧ clampLo .hue = 0 ∧ clampHi .hue = 72 ∧
    clampLo .sat = 0 ∧ clampHi .sat = 100) ∧
  (∀ (f : Setting) (v : Int),
    (v < clampLo f → clamp f v = clampLo f) ∧ (clampHi f < v → clamp f v = clampHi f) ∧
    (clampLo f ≤ v → v ≤ clampHi f → clamp f v = v) ∧ 0 ≤ clamp f v ∧ clamp f v ≤ 100 ∧
    ((clampByte f v).toNat : Int) = clamp f v) ∧
  clamp .bright 150 = 100 ∧ clamp .hue (-5) = 0

/-- exec DSCLR answers the same state with DeviceState unknown, one Done and the sequencer idle; the trace and
everything else are unchanged. Its word is 0x0007. (R220.) -/
def Obligations.DsclrForgetsDeviceState : Prop :=
  decodeCommand 0x0007 = .ok .dsclr ∧
  ∀ s : State, exec .dsclr s =
    .next { s with ds := ⟨none, none, none, none, none, none⟩, phase := .idle, ptrace := s.ptrace ++ [.done] }

/-- A STATUS frame sets all six fields, a SETACK frame the one its field code names, each counts in FRAMES and NOTIFS,
appends the new DeviceState to NTRACE and pulses notify; SETCMD and OTHER count in FRAMES and IGNORED only; each
then advances BCUR by 3+L and HCUR by 2·(3+L). All four answer next in every state. (R174, R179, R180, R182, R183.) -/
def Obligations.FramesHaveTheirEffect : Prop :=
  (∀ (devId devType p c b t h v : Byte) (surplus : List Byte) (s : State),
    exec (.status devId devType p c b t h v surplus) s = .next { s with
      frames := s.frames + 1, notifs := s.notifs + 1
      ds := ⟨some p, some c, some b, some t, some h, some v⟩
      ntrace := s.ntrace ++ [⟨some p, some c, some b, some t, some h, some v⟩]
      ptrace := s.ptrace ++ [.notify]
      hcur := s.hcur + BitVec.ofNat 12 (2 * (14 + surplus.length))
      bcur := s.bcur + BitVec.ofNat 11 (14 + surplus.length) }) ∧
  (∀ (devId devType r : Byte) (f : Setting) (argc v : Byte) (surplus : List Byte) (s : State), ∃ d : DeviceState,
    exec (.setack devId devType r f argc v surplus) s = .next { s with
      frames := s.frames + 1, notifs := s.notifs + 1, ds := d
      ntrace := s.ntrace ++ [d]
      ptrace := s.ptrace ++ [.notify]
      hcur := s.hcur + BitVec.ofNat 12 (2 * (12 + surplus.length))
      bcur := s.bcur + BitVec.ofNat 11 (12 + surplus.length) } ∧
    d.get f = some v ∧ ∀ g, g ≠ f → d.get g = s.ds.get g) ∧
  (∀ (devId devType : Byte) (payload : List Byte) (s : State),
    exec (.setcmd devId devType payload) s = .next { s with
      frames := s.frames + 1, ignored := s.ignored + 1
      hcur := s.hcur + BitVec.ofNat 12 (2 * (8 + payload.length))
      bcur := s.bcur + BitVec.ofNat 11 (8 + payload.length) }) ∧
  (∀ (body : List Byte) (s : State),
    exec (.other body) s = .next { s with
      frames := s.frames + 1, ignored := s.ignored + 1
      hcur := s.hcur + BitVec.ofNat 12 (2 * (5 + body.length))
      bcur := s.bcur + BitVec.ofNat 11 (5 + body.length) })

/-- When the sequencer goes on with the frame loop: if the candidate at the cursors passes the four checks with L ≥ 11
and byte 5 is 0x03, the step sets the six fields to frame bytes 6 to 11, CRC to the computed checksum, counts,
notifies with the new DeviceState, advances by 3+L bytes and 2·(3+L) characters, and changes nothing else. (R100,
R173, R174, R176, R179, R183.) -/
def Obligations.StatusFrameInTheText : Prop :=
  ∀ (s u : State) (l : Nat) (d : DeviceState), Advances s .frames u → Candidate s l →
    11 ≤ l → s.frameByte 5 = 0x03 →
    d = ⟨some (s.frameByte 6), some (s.frameByte 7), some (s.frameByte 8), some (s.frameByte 9),
      some (s.frameByte 10), some (s.frameByte 11)⟩ →
    step s = .next { u with
      crc := s.textCrc (l + 1), frames := s.frames + 1, notifs := s.notifs + 1, ds := d
      ntrace := s.ntrace ++ [d], ptrace := s.ptrace ++ [.notify]
      hcur := s.hcur + BitVec.ofNat 12 (2 * (3 + l)), bcur := s.bcur + BitVec.ofNat 11 (3 + l) }

/-- When the sequencer goes on with the frame loop: if the candidate passes the four checks with L ≥ 9, byte 5 is 0x02
and byte 7 is the code of setting f, the step sets field f to frame byte 9 and leaves the other five, sets CRC,
counts, notifies, advances, and changes nothing else. (R101, R102, R174, R176, R180, R183.) -/
def Obligations.SetackFrameInTheText : Prop :=
  ∀ (s u : State) (l : Nat) (f : Setting), Advances s .frames u → Candidate s l →
    9 ≤ l → s.frameByte 5 = 0x02 → s.frameByte 7 = fieldCode f →
    ∃ d : DeviceState, d.get f = some (s.frameByte 9) ∧ (∀ g, g ≠ f → d.get g = s.ds.get g) ∧
      step s = .next { u with
        crc := s.textCrc (l + 1), frames := s.frames + 1, notifs := s.notifs + 1, ds := d
        ntrace := s.ntrace ++ [d], ptrace := s.ptrace ++ [.notify]
        hcur := s.hcur + BitVec.ofNat 12 (2 * (3 + l)), bcur := s.bcur + BitVec.ofNat 11 (3 + l) }

/-- In a good state whose sequencer goes on with the frame loop: if the candidate passes the four checks and is neither
a status update nor a set-acknowledge update, the step sets CRC, counts in FRAMES and IGNORED, advances, and changes
nothing else. (R103, R174, R176, R178, R181, R182.) -/
def Obligations.OtherFramesAreOnlyCounted : Prop :=
  ∀ (s u : State) (l : Nat), Inv s → Advances s .frames u → Candidate s l →
    ¬(11 ≤ l ∧ s.frameByte 5 = 0x03) → ¬(9 ≤ l ∧ s.frameByte 5 = 0x02 ∧ (s.frameByte 7).toNat ≤ 5) →
    step s = .next { u with
      crc := s.textCrc (l + 1), frames := s.frames + 1, ignored := s.ignored + 1
      hcur := s.hcur + BitVec.ofNat 12 (2 * (3 + l)), bcur := s.bcur + BitVec.ofNat 11 (3 + l) }

/-- When the sequencer goes on with the frame loop, with HCUR = 2·BCUR: fewer than 6 characters left gives STOPWHY 1;
otherwise a wrong magic gives 2; otherwise a length byte beyond what remains gives 3; otherwise a checksum mismatch
gives 4 with the computed checksum in CRC. The block is then idle, Done is emitted, nothing else changes: no error
flag, cursors at the failed candidate. (R169, R170, R171, R172, R173, R186, R233.) -/
def Obligations.ParseStopsAtTheFirstFailedCheck : Prop :=
  ∀ (s u : State) (l : Nat) (c : Word), Advances s .frames u → s.hcur.toNat = 2 * s.bcur.toNat →
    l = (s.frameByte 2).toNat → c = s.textCrc (l + 1) →
    if s.len.toNat < s.hcur.toNat + 6 then
      step s = .next { u with stopwhy := 1, phase := .idle, ptrace := s.ptrace ++ [.done] }
    else if s.frameByte 0 ≠ 0x4C ∨ s.frameByte 1 ≠ 0x54 then
      step s = .next { u with stopwhy := 2, phase := .idle, ptrace := s.ptrace ++ [.done] }
    else if s.len.toNat / 2 < s.bcur.toNat + 3 + l then
      step s = .next { u with stopwhy := 3, phase := .idle, ptrace := s.ptrace ++ [.done] }
    else if c ≠ be16 (s.frameByte (l + 1)) (s.frameByte (l + 2)) then
      step s = .next { u with crc := c, stopwhy := 4, phase := .idle, ptrace := s.ptrace ++ [.done] }
    else Candidate s l

/-- A byte sequence that decodes to a frame has length byte at least 2; a candidate at the cursors of a good state in
the frame loop that passes the four checks has L ≥ 2; the CRCs of 4C, 4C54 and 4C5402 are 0x8948, 0x52D0 and 0x8AF5;
4C54028AF5 validates. (R175.) -/
def Obligations.ValidatedFramesHaveFiveBytes : Prop :=
  (∀ (bytes : List Byte) (i : Instr), decodeFrame bytes = .ok i → 2 ≤ (bytes.getD 2 0).toNat) ∧
  (∀ (s : State) (l : Nat), Inv s → s.phase = .running .frames → Candidate s l → 2 ≤ l ∧ 5 ≤ 3 + l) ∧
  crcBytes [0x4C] = 0x8948 ∧ crcBytes [0x4C, 0x54] = 0x52D0 ∧ crcBytes [0x4C, 0x54, 0x02] = 0x8AF5 ∧
  decodeFrame [0x4C, 0x54, 0x02, 0x8A, 0xF5] = .ok (.other [])

/-- In a good state in the frame loop, for every n up to the bytes that remain: crc_text of 2n characters of RXBUF at
HCUR equals crc_bytes of n bytes of SCR at BCUR. (R61, R74.) -/
def Obligations.TextAndScratchChecksumsAgree : Prop :=
  ∀ (s : State) (n : Nat), Inv s → s.phase = .running .frames → s.bcur.toNat + n ≤ s.len.toNat / 2 →
    crcText s.lowercase (s.memRead .rxbuf s.hcur.toNat (2 * n)) = crcBytes (s.memRead .scr s.bcur.toNat n)

/-- If t1 has an even number of characters and PARSE of it consumes all of it, PARSE of t1 ++ t2 has the sums of the
counters, the stop code of t2, the cursors of t2 plus t1's, the DeviceState and events of one after the other, and
the CRC of t2 unless t2 computes none, then t1's. (R188, R105.) -/
def Obligations.ParsesConcatenate : Prop :=
  ∀ (lc : LowercaseHex) (t1 t2 : List Byte) (d : DeviceState) (r1 r2 : ParseResult),
    t1.length % 2 = 0 → r1 = parseText lc t1 d → 2 * r1.consumed = t1.length → r2 = parseText lc t2 r1.ds →
    parseText lc (t1 ++ t2) d =
      { frames := r1.frames + r2.frames, notifs := r1.notifs + r2.notifs, ignored := r1.ignored + r2.ignored
        stop := r2.stop, consumed := r1.consumed + r2.consumed, crc := r2.crc.or r1.crc
        ds := r2.ds, events := r1.events ++ r2.events }

/-- With r the result of PARSE of t from d, PARSE of t from r's DeviceState has the same counters, stop code, cursor and
CRC, the same DeviceState, and as many events. (R189, R167.) -/
def Obligations.ParsingTwiceGivesTheSame : Prop :=
  ∀ (lc : LowercaseHex) (t : List Byte) (d : DeviceState) (r r2 : ParseResult),
    r = parseText lc t d → r2 = parseText lc t r.ds →
    r2.frames = r.frames ∧ r2.notifs = r.notifs ∧ r2.ignored = r.ignored ∧ r2.stop = r.stop ∧
      r2.consumed = r.consumed ∧ r2.crc = r.crc ∧ r2.ds = r.ds ∧ r2.events.length = r.events.length

/-- decText (encBytes s) = s for either parameter value; encBytes (decText t) = t exactly when t has even length and
only 0-9A-F, and in general is t without an odd last character, each character replaced by the digit of its value:
itself, its uppercase form, or 0; "G1", "01" and " 1" all decode to 0x01; nib (hexdigit x) = x. (R134.) -/
def Obligations.CodecRoundTripLaws : Prop :=
  (∀ (lc : LowercaseHex) (s : List Byte), decText lc (encBytes s) = s) ∧
  (∀ (lc : LowercaseHex) (t : List Byte), encBytes (decText lc t) = t ↔
    t.length % 2 = 0 ∧ ∀ c ∈ t, (0x30 ≤ c.toNat ∧ c.toNat ≤ 0x39) ∨ (0x41 ≤ c.toNat ∧ c.toNat ≤ 0x46)) ∧
  (∀ (lc : LowercaseHex) (t : List Byte), encBytes (decText lc t) =
    (t.take (2 * (t.length / 2))).map (fun c =>
      if (0x30 ≤ c.toNat ∧ c.toNat ≤ 0x39) ∨ (0x41 ≤ c.toNat ∧ c.toNat ≤ 0x46) then c
      else if 0x61 ≤ c.toNat ∧ c.toNat ≤ 0x66 ∧ lc = .accept then c - 0x20 else 0x30)) ∧
  (∀ lc : LowercaseHex, decText lc [0x47, 0x31] = [0x01] ∧ decText lc [0x30, 0x31] = [0x01] ∧
    decText lc [0x20, 0x31] = [0x01]) ∧
  ∀ (lc : LowercaseHex) (x : BitVec 4), nib lc (hexdigit x) = x

/-- crc_step of the sums is the sum of the crc_steps, for all registers and bytes; crc_step 0 0 = 0; the eight values on
single bits and 0x1EF0 on 0xFF; a sequence of zero bytes has CRC 0. (R153, R150, R151.) -/
def Obligations.CrcStepIsLinear : Prop :=
  (∀ (r1 r2 : Word) (b1 b2 : Byte), crcStep (r1 ^^^ r2) (b1 ^^^ b2) = crcStep r1 b1 ^^^ crcStep r2 b2) ∧
  [0x00, 0x01, 0x02, 0x04, 0x08, 0x10, 0x20, 0x40, 0x80, 0xFF].map (crcStep 0) =
    [0x0000, 0x1021, 0x2042, 0x4084, 0x8108, 0x1231, 0x2462, 0x48C4, 0x9188, 0x1EF0] ∧
  ∀ n, crcBytes (List.replicate n 0) = 0

/-- crc_bytes of s followed by the two bytes of its CRC is 0; crc_bytes of a body followed by two bytes is 0 exactly
when those bytes are the body's CRC, most significant first; the 24 characters of the source's frame have CRC 0.
(R155.) -/
def Obligations.ChecksumLeavesZeroResidue : Prop :=
  (∀ s : List Byte, crcBytes (s ++ [hiByte (crcBytes s), loByte (crcBytes s)]) = 0) ∧
  (∀ (body : List Byte) (hi lo : Byte), crcBytes (body ++ [hi, lo]) = 0 ↔ crcBytes body = be16 hi lo) ∧
  ∀ lc : LowercaseHex, crcText lc
    [0x34, 0x43, 0x35, 0x34, 0x30, 0x39, 0x30, 0x30, 0x33, 0x30, 0x35, 0x37, 0x30, 0x30, 0x30, 0x32, 0x30, 0x31,
      0x33, 0x32, 0x34, 0x41, 0x38, 0x46] = 0

/-- For every text of even length, every position and every character whose nib differs from the one there, crc_text of
the changed text differs; a replacement with the same nib leaves it the same. (R156, R153.) -/
def Obligations.OneChangedDigitChangesTheCrc : Prop :=
  (∀ (lc : LowercaseHex) (t : List Byte) (k : Nat) (c : Byte), t.length % 2 = 0 → k < t.length →
      nib lc c ≠ nib lc (t.getD k 0) → crcText lc (t.set k c) ≠ crcText lc t) ∧
  ∀ (lc : LowercaseHex) (t : List Byte) (k : Nat) (c : Byte),
      nib lc c = nib lc (t.getD k 0) → crcText lc (t.set k c) = crcText lc t

/-- If the table of R231 gives a cause for instruction i in state s, exec i s is s with STATUS = ERR with that code, one
Done appended and the sequencer idle, and nothing else changed; if it gives none, no next state of exec i s has
another STATUS. The causes are LEN above 2048 for HEXDEC, CRC16 and PARSE, LEN above 1024 for HEXENC, SEL above 5
for BUILDSET, and none for the other instructions. ERR is then 1 and ERRCODE is 2 for LEN_RANGE and 3 for SEL_RANGE.
(R231, R232, R233.) -/
def Obligations.RefusalsAreExactlyTheListed : Prop :=
  (∀ (i : Instr) (s : State) (c : RefuseCode), refusalOf i s = some c →
      exec i s = .next { s with status := statusOfRefusal c, phase := .idle, ptrace := s.ptrace ++ [.done] }) ∧
  (∀ s : State,
    (∀ i : Instr, i = .hexdec ∨ i = .crc16 ∨ i = .parse →
      refusalOf i s = if 2048 < s.len.toNat then some .lenRange else none) ∧
    (refusalOf .hexenc s = if 1024 < s.len.toNat then some .lenRange else none) ∧
    (refusalOf .buildset s = if 5 < s.sel.toNat then some .selRange else none) ∧
    (∀ i : Instr, i = .nop ∨ i = .hexenc16 ∨ i = .dsclr ∨ i.isFrame = true → refusalOf i s = none)) ∧
  (∀ (i : Instr) (s t : State), refusalOf i s = none → exec i s = .next t → t.status = s.status) ∧
  (∀ c, errBit (statusOfRefusal c) = true) ∧ errCode (statusOfRefusal .illegalCmd) = 1 ∧
  errCode (statusOfRefusal .lenRange) = 2 ∧ errCode (statusOfRefusal .selRange) = 3

/-- When a write of v to STATUS takes effect, the step answers the state without that transaction and with STATUS 0 if v
has bit 0, unchanged otherwise; nothing else changes. (R221, R23.) -/
def Obligations.StatusClearIsWriteOne : Prop :=
  ∀ (s u : State) (v : Word), Acts s (.write .reg 1 v) u →
    step s = .next { u with status := if v.getLsbD 0 then 0 else s.status }

/-- If ERR is 1 in s and 0 in the state after a step, the step was the reset, or a write of STATUS with bit 0 set took
effect in it, in the idle block, and changed STATUS only. (R23, R221, R234.) -/
def Obligations.ErrIsSticky : Prop :=
  ∀ s t : State, step s = .next t → errBit s.status = true → errBit t.status = false →
    (∃ rest, s.inputs = .rst :: rest ∧ t = s.resetWith rest) ∨
    ∃ (v : Word) (u : State), v.getLsbD 0 = true ∧ Acts s (.write .reg 1 v) u ∧ t = { u with status := 0 }

/-- If exec i s answers next t, then with any other STATUS it answers the same t, with that STATUS where the instruction
is not refused and the refusal's STATUS where it is. (R40, R234.) -/
def Obligations.ErrBlocksNothing : Prop :=
  ∀ (i : Instr) (s t : State) (x : BitVec 4), exec i s = .next t →
    exec i { s with status := x } =
      .next { t with status := if refusalOf i s = none then x else t.status }

/-- If exec i s answers next t, then LEN, VAL, SEL, RXBUF, the held transaction, the inputs, the epoch and LOWERCASE_HEX
are those of s. (R24, R25, R26, R41, R47, R216.) -/
def Obligations.OperandsAndTextAreNeverWritten : Prop :=
  ∀ (i : Instr) (s t : State), exec i s = .next t →
    t.len = s.len ∧ t.val = s.val ∧ t.sel = s.sel ∧ t.rxbuf = s.rxbuf ∧ t.held = s.held ∧ t.inputs = s.inputs ∧
      t.epoch = s.epoch ∧ t.lowercase = s.lowercase

/-- If exec i s answers next t: STATUS differs only where i is refused; LEN, VAL, SEL and RXBUF never; a byte of SCR
only for HEXDEC and PARSE, below LEN>>1; a byte of TXBUF only for HEXENC below 2·LEN, HEXENC16 below 4, BUILDSET
below 24; CRC only for CRC16, PARSE, BUILDSET; OUTLEN only for HEXDEC, HEXENC, HEXENC16, PARSE, BUILDSET; STOPWHY
only for PARSE; FRAMES, NOTIFS, IGNORED and the cursors only for PARSE and its frames; DeviceState only for DSCLR,
STATUS, SETACK; NTRACE only for STATUS, SETACK; and where i is refused nothing but STATUS, the phase and the events
differs. (R39, R47.) -/
def Obligations.InstructionsWriteOnlyTheirRow : Prop :=
  ∀ (i : Instr) (s t : State), exec i s = .next t →
    (t.status ≠ s.status → refusalOf i s ≠ none) ∧
    (t.len = s.len ∧ t.val = s.val ∧ t.sel = s.sel ∧ ∀ a, t.peek .rxbuf a = s.peek .rxbuf a) ∧
    (∀ a, t.peek .scr a ≠ s.peek .scr a → (i = .hexdec ∨ i = .parse) ∧ a < s.len.toNat / 2) ∧
    (∀ a, t.peek .txbuf a ≠ s.peek .txbuf a →
      (i = .hexenc ∧ a < 2 * s.len.toNat) ∨ (i = .hexenc16 ∧ a < 4) ∨ (i = .buildset ∧ a < 24)) ∧
    (t.crc ≠ s.crc → i = .crc16 ∨ i = .parse ∨ i = .buildset) ∧
    (t.outlen ≠ s.outlen → i = .hexdec ∨ i = .hexenc ∨ i = .hexenc16 ∨ i = .parse ∨ i = .buildset) ∧
    (t.stopwhy ≠ s.stopwhy → i = .parse) ∧
    ((t.frames ≠ s.frames ∨ t.notifs ≠ s.notifs ∨ t.ignored ≠ s.ignored ∨ t.hcur ≠ s.hcur ∨ t.bcur ≠ s.bcur) →
      i = .parse ∨ i.isFrame = true) ∧
    (t.ds ≠ s.ds → i = .dsclr ∨ i.mnemonic = "STATUS" ∨ i.mnemonic = "SETACK") ∧
    (t.ntrace ≠ s.ntrace → i.mnemonic = "STATUS" ∨ i.mnemonic = "SETACK") ∧
    (refusalOf i s ≠ none → t = { s with status := t.status, phase := t.phase, ptrace := t.ptrace })

/-- If a step changes DeviceState, then it was the reset, or the running operation was the accepted command word 0x0007
(DSCLR), which leaves all six fields unknown and ends, or PARSE was in its loop and the new DeviceState was appended
to NTRACE as one notification. (Where the running word comes from: OnlyAcceptedCommandsRun.) (R39, R53, R183, R220.) -/
def Obligations.OnlyFramesDsclrAndResetWriteDeviceState : Prop :=
  ∀ s t : State, step s = .next t → t.ds ≠ s.ds →
    (∃ rest, s.inputs = .rst :: rest ∧ t = s.resetWith rest) ∨
    (∃ u, Advances s (.operation 0x0007) u ∧
      t = { u with ds := .unknown, phase := .idle, ptrace := u.ptrace ++ [.done] }) ∨
    (∃ u, Advances s .frames u ∧ t.phase = .running .frames ∧ t.ntrace = s.ntrace ++ [t.ds] ∧
      t.notifs = s.notifs + 1)

/-- After any step the trace is the old one, or PARSE was in its loop and the trace is the old one with one snapshot
appended, which is the new DeviceState, or the step was the reset and it is empty. (R44, R183, R240.) -/
def Obligations.TraceOnlyGrows : Prop :=
  ∀ s t : State, step s = .next t →
    t.ntrace = s.ntrace ∨ ((∃ u, Advances s .frames u) ∧ t.ntrace = s.ntrace ++ [t.ds]) ∨
    ((∃ rest, s.inputs = .rst :: rest ∧ t = s.resetWith rest) ∧ t.ntrace = [])

/-- A write to CMD that takes effect, as the next input or after it was held, either is refused and leaves the block
idle with exactly one Done appended, or is accepted and emits nothing; the step that executes an accepted operation
leaves the block idle with exactly one Done appended, or it is an accepted PARSE and enters its loop with no event;
a step of the loop leaves the block idle with exactly one Done appended, or in the loop with nothing or one Notify
appended; a step in which neither a write to CMD takes effect nor the sequencer goes on emits no Done and no Notify.
(R215, R232, R241, R244.) -/
def Obligations.DoneEndsEveryCommand : Prop :=
  (∀ (s u t : State) (w : Word), Acts s (.write .reg 0 w) u → step s = .next t →
      (t.phase = .idle ∧ t.ptrace = s.ptrace ++ [.done]) ∨
      (t.phase = .running (.operation w) ∧ t.ptrace = s.ptrace)) ∧
  (∀ (s u t : State) (w : Word), Advances s (.operation w) u → step s = .next t →
      (t.phase = .idle ∧ t.ptrace = s.ptrace ++ [.done]) ∨
      (t.phase = .running .frames ∧ w = 0x0005 ∧ t.ptrace = s.ptrace)) ∧
  (∀ s u t : State, Advances s .frames u → step s = .next t →
      (t.phase = .idle ∧ t.ptrace = s.ptrace ++ [.done]) ∨
      (t.phase = .running .frames ∧ (t.ptrace = s.ptrace ∨ t.ptrace = s.ptrace ++ [.notify]))) ∧
  (∀ s t : State, step s = .next t → (∀ w u, ¬Acts s (.write .reg 0 w) u) → (∀ job u, ¬Advances s job u) →
      t.ptrace.count .done ≤ s.ptrace.count .done ∧ t.ptrace.count .notify ≤ s.ptrace.count .notify)

/-- For every state, the step answers next; for every instruction and state, exec answers next. (R230, R270,
93_implementation_defined.md section 1.) -/
def Obligations.BlockNeverStops : Prop :=
  (∀ s : State, Safe s) ∧ ∀ (i : Instr) (s : State), ∃ t, exec i s = .next t

/-- When a read of REG index i takes effect, the step returns readReg i and changes nothing else; readReg is the
register of R21 for each index, 0 for CMD, 13 to 15 and 22 and above; an unknown DeviceState field reads 0x000, a
known one 0x100 + value. (R8, R21, R36.) -/
def Obligations.HostReadsTheRegisters : Prop :=
  (∀ (s u : State) (i : Nat), Acts s (.read .reg i) u →
      step s = .next { u with ptrace := u.ptrace ++ [.returned (u.readReg i)] }) ∧
  (∀ s : State, s.readReg 0 = 0 ∧ (s.readReg 1).toNat = s.status.toNat ∧ (s.readReg 2).toNat = s.len.toNat ∧
    s.readReg 3 = s.val ∧ (s.readReg 4).toNat = s.sel.toNat ∧ s.readReg 5 = s.crc ∧
    (s.readReg 6).toNat = s.outlen.toNat ∧ (s.readReg 7).toNat = s.frames.toNat ∧
    (s.readReg 8).toNat = s.notifs.toNat ∧ (s.readReg 9).toNat = s.ignored.toNat ∧
    (s.readReg 10).toNat = s.stopwhy.toNat ∧ (s.readReg 11).toNat = s.hcur.toNat ∧
    (s.readReg 12).toNat = s.bcur.toNat ∧
    (∀ f : Setting, (s.readReg (16 + (fieldCode f).toNat)).toNat =
      match s.ds.get f with
      | some v => 256 + v.toNat
      | none => 0) ∧
    ∀ i, (13 ≤ i ∧ i ≤ 15) ∨ 22 ≤ i → s.readReg i = 0)

/-- When a write of v to LEN, VAL or SEL takes effect, the step stores v[11:0], v, v[2:0] and changes nothing else; a
write to any index from 5 on changes nothing. (R21, R24, R25, R26.) -/
def Obligations.HostWritesTheOperands : Prop :=
  ∀ (s u : State) (i : Nat) (v : Word), Acts s (.write .reg i v) u →
    (i = 2 → step s = .next { u with len := BitVec.ofNat 12 v.toNat }) ∧
    (i = 3 → step s = .next { u with val := v }) ∧
    (i = 4 → step s = .next { u with sel := BitVec.ofNat 3 v.toNat }) ∧
    (5 ≤ i → step s = .next u)

/-- A write of v to RXBUF or SCR in range stores v[7:0] there and leaves every other location and everything else; to
TXBUF or out of range it changes nothing; a read returns the zero-extended byte, or 0 out of range. (R8, R21, R67.) -/
def Obligations.HostAccessesTheBuffers : Prop :=
  (∀ (s u : State) (b : Buffer) (a : Nat) (v : Word), Acts s (.write (.buf b) a v) u →
      ((b = .txbuf ∨ b.capacity ≤ a) → step s = .next u) ∧
      (b ≠ .txbuf → a < b.capacity → ∃ t, step s = .next t ∧ t.peek b a = v.setWidth 8 ∧
        (∀ b' a', (b' ≠ b ∨ a' ≠ a) → t.peek b' a' = s.peek b' a') ∧
        t = { u with rxbuf := t.rxbuf, scr := t.scr })) ∧
  (∀ (s u : State) (b : Buffer) (a : Nat), Acts s (.read (.buf b) a) u →
      step s = .next { u with
        ptrace := u.ptrace ++ [.returned (if a < b.capacity then (s.peek b a).setWidth 16 else 0)] }) ∧
  (Buffer.rxbuf.capacity = 2048 ∧ Buffer.scr.capacity = 1024 ∧ Buffer.txbuf.capacity = 2048) ∧
  (∀ (s : State) (i : Nat), 22 ≤ i ∨ (13 ≤ i ∧ i ≤ 15) → s.readReg i = 0 ∧
    ∀ (v : Word) (u : State), Acts s (.write .reg i v) u → step s = .next u)

/-- Running with nothing held, a presented transaction is held and nothing else changes. While the sequencer goes on, a
held transaction stays held, and what waits outside (nothing, a quiet interval, a further transaction) makes no
difference to what the step does. Idle with a transaction held and no rst next, the step performs it on the state
with nothing held; with rst next it is abandoned (ResetAbandonsWhatRuns). The field held, one transaction in it, and
the order of the inputs are the model's (logs 2, 3). (R45, R70, notes/assumptions/2.md, notes/assumptions/3.md.) -/
def Obligations.TransactionsAreHeldWhileBusy : Prop :=
  (∀ (s : State) (job : Job) (t : HostTxn) (rest : List Input), s.phase = .running job → s.held = none →
      s.inputs = .txn t :: rest → step s = .next { s with held := some t, inputs := rest }) ∧
  (∀ (s u v : State) (job : Job), Advances s job u → step s = .next v → v.held = s.held ∧ v.inputs = u.inputs) ∧
  (∀ (s v : State) (job : Job), s.phase = .running job → s.inputs = [] → step s = .next v →
      (∀ rest, step { s with inputs := .quiet :: rest } = .next { v with inputs := rest }) ∧
      (∀ t rest, s.held ≠ none →
        step { s with inputs := .txn t :: rest } = .next { v with inputs := .txn t :: rest })) ∧
  (∀ (s : State) (t : HostTxn), s.phase = .idle → s.held = some t → (∀ rest, s.inputs ≠ .rst :: rest) →
      step s = perform t { s with held := none })

/-- Idle, nothing held, no input: the step answers the same state. (R252.) -/
def Obligations.IdleHoldsItsState : Prop :=
  ∀ s : State, s.phase = .idle → s.held = none → s.inputs = [] → step s = .next s

/-- If two contents of RXBUF agree below LEN, each of the three operations answers the same state, each with its own
RXBUF. (R41, R277.) -/
def Obligations.TextAboveLenIsNeverRead : Prop :=
  ∀ (s t : State) (m : Memory) (i : Instr), i = .hexdec ∨ i = .crc16 ∨ i = .parse →
    (∀ a, a < s.len.toNat → ({ s with rxbuf := m } : State).peek .rxbuf a = s.peek .rxbuf a) →
    exec i s = .next t → exec i { s with rxbuf := m } = .next { t with rxbuf := m }

/-- The three encoding operations answer the same state for either value; a text without lowercase hex letters decodes
alike; every step leaves the parameter as it is. (R9, R138.) -/
def Obligations.LowercaseParameterTouchesOnlyInput : Prop :=
  (∀ (s t : State) (lc : LowercaseHex) (i : Instr), i = .hexenc ∨ i = .hexenc16 ∨ i = .buildset →
      exec i s = .next t → exec i { s with lowercase := lc } = .next { t with lowercase := lc }) ∧
  (∀ t : List Byte, (∀ c ∈ t, c.toNat < 0x61 ∨ 0x66 < c.toNat) → decText .accept t = decText .reject t) ∧
  ∀ s t : State, step s = .next t → t.lowercase = s.lowercase
end

