-- ==== Sys2Proof/Laws/State.lean ====
section
/-! SUPPORT. Per shared operation and per field of the state, what the operation leaves in the field: all true by `rfl`
(a buffer write splits on the buffer). No later proof unfolds a record update. -/

namespace Sys2Proof.Machine

/-! ## `start` -/

@[simp] theorem State.start_status (s : State) (cmd : Word) : (s.start cmd).status = s.status := rfl
@[simp] theorem State.start_len (s : State) (cmd : Word) : (s.start cmd).len = s.len := rfl
@[simp] theorem State.start_val (s : State) (cmd : Word) : (s.start cmd).val = s.val := rfl
@[simp] theorem State.start_sel (s : State) (cmd : Word) : (s.start cmd).sel = s.sel := rfl
@[simp] theorem State.start_crc (s : State) (cmd : Word) : (s.start cmd).crc = s.crc := rfl
@[simp] theorem State.start_outlen (s : State) (cmd : Word) : (s.start cmd).outlen = s.outlen := rfl
@[simp] theorem State.start_frames (s : State) (cmd : Word) : (s.start cmd).frames = s.frames := rfl
@[simp] theorem State.start_notifs (s : State) (cmd : Word) : (s.start cmd).notifs = s.notifs := rfl
@[simp] theorem State.start_ignored (s : State) (cmd : Word) : (s.start cmd).ignored = s.ignored := rfl
@[simp] theorem State.start_stopwhy (s : State) (cmd : Word) : (s.start cmd).stopwhy = s.stopwhy := rfl
@[simp] theorem State.start_hcur (s : State) (cmd : Word) : (s.start cmd).hcur = s.hcur := rfl
@[simp] theorem State.start_bcur (s : State) (cmd : Word) : (s.start cmd).bcur = s.bcur := rfl
@[simp] theorem State.start_ds (s : State) (cmd : Word) : (s.start cmd).ds = s.ds := rfl
@[simp] theorem State.start_rxbuf (s : State) (cmd : Word) : (s.start cmd).rxbuf = s.rxbuf := rfl
@[simp] theorem State.start_scr (s : State) (cmd : Word) : (s.start cmd).scr = s.scr := rfl
@[simp] theorem State.start_txbuf (s : State) (cmd : Word) : (s.start cmd).txbuf = s.txbuf := rfl
@[simp] theorem State.start_ntrace (s : State) (cmd : Word) : (s.start cmd).ntrace = s.ntrace := rfl
@[simp] theorem State.start_phase (s : State) (cmd : Word) : (s.start cmd).phase = .running (.operation cmd) := rfl
@[simp] theorem State.start_held (s : State) (cmd : Word) : (s.start cmd).held = s.held := rfl
@[simp] theorem State.start_inputs (s : State) (cmd : Word) : (s.start cmd).inputs = s.inputs := rfl
@[simp] theorem State.start_ptrace (s : State) (cmd : Word) : (s.start cmd).ptrace = s.ptrace := rfl
@[simp] theorem State.start_epoch (s : State) (cmd : Word) : (s.start cmd).epoch = s.epoch := rfl
@[simp] theorem State.start_lowercase (s : State) (cmd : Word) : (s.start cmd).lowercase = s.lowercase := rfl

/-! ## `enterLoop` -/

@[simp] theorem State.enterLoop_status (s : State) : (s.enterLoop).status = s.status := rfl
@[simp] theorem State.enterLoop_len (s : State) : (s.enterLoop).len = s.len := rfl
@[simp] theorem State.enterLoop_val (s : State) : (s.enterLoop).val = s.val := rfl
@[simp] theorem State.enterLoop_sel (s : State) : (s.enterLoop).sel = s.sel := rfl
@[simp] theorem State.enterLoop_crc (s : State) : (s.enterLoop).crc = s.crc := rfl
@[simp] theorem State.enterLoop_outlen (s : State) : (s.enterLoop).outlen = s.outlen := rfl
@[simp] theorem State.enterLoop_frames (s : State) : (s.enterLoop).frames = s.frames := rfl
@[simp] theorem State.enterLoop_notifs (s : State) : (s.enterLoop).notifs = s.notifs := rfl
@[simp] theorem State.enterLoop_ignored (s : State) : (s.enterLoop).ignored = s.ignored := rfl
@[simp] theorem State.enterLoop_stopwhy (s : State) : (s.enterLoop).stopwhy = s.stopwhy := rfl
@[simp] theorem State.enterLoop_hcur (s : State) : (s.enterLoop).hcur = s.hcur := rfl
@[simp] theorem State.enterLoop_bcur (s : State) : (s.enterLoop).bcur = s.bcur := rfl
@[simp] theorem State.enterLoop_ds (s : State) : (s.enterLoop).ds = s.ds := rfl
@[simp] theorem State.enterLoop_rxbuf (s : State) : (s.enterLoop).rxbuf = s.rxbuf := rfl
@[simp] theorem State.enterLoop_scr (s : State) : (s.enterLoop).scr = s.scr := rfl
@[simp] theorem State.enterLoop_txbuf (s : State) : (s.enterLoop).txbuf = s.txbuf := rfl
@[simp] theorem State.enterLoop_ntrace (s : State) : (s.enterLoop).ntrace = s.ntrace := rfl
@[simp] theorem State.enterLoop_phase (s : State) : (s.enterLoop).phase = .running .frames := rfl
@[simp] theorem State.enterLoop_held (s : State) : (s.enterLoop).held = s.held := rfl
@[simp] theorem State.enterLoop_inputs (s : State) : (s.enterLoop).inputs = s.inputs := rfl
@[simp] theorem State.enterLoop_ptrace (s : State) : (s.enterLoop).ptrace = s.ptrace := rfl
@[simp] theorem State.enterLoop_epoch (s : State) : (s.enterLoop).epoch = s.epoch := rfl
@[simp] theorem State.enterLoop_lowercase (s : State) : (s.enterLoop).lowercase = s.lowercase := rfl

/-! ## `emitDone` -/

@[simp] theorem State.emitDone_status (s : State) : (s.emitDone).status = s.status := rfl
@[simp] theorem State.emitDone_len (s : State) : (s.emitDone).len = s.len := rfl
@[simp] theorem State.emitDone_val (s : State) : (s.emitDone).val = s.val := rfl
@[simp] theorem State.emitDone_sel (s : State) : (s.emitDone).sel = s.sel := rfl
@[simp] theorem State.emitDone_crc (s : State) : (s.emitDone).crc = s.crc := rfl
@[simp] theorem State.emitDone_outlen (s : State) : (s.emitDone).outlen = s.outlen := rfl
@[simp] theorem State.emitDone_frames (s : State) : (s.emitDone).frames = s.frames := rfl
@[simp] theorem State.emitDone_notifs (s : State) : (s.emitDone).notifs = s.notifs := rfl
@[simp] theorem State.emitDone_ignored (s : State) : (s.emitDone).ignored = s.ignored := rfl
@[simp] theorem State.emitDone_stopwhy (s : State) : (s.emitDone).stopwhy = s.stopwhy := rfl
@[simp] theorem State.emitDone_hcur (s : State) : (s.emitDone).hcur = s.hcur := rfl
@[simp] theorem State.emitDone_bcur (s : State) : (s.emitDone).bcur = s.bcur := rfl
@[simp] theorem State.emitDone_ds (s : State) : (s.emitDone).ds = s.ds := rfl
@[simp] theorem State.emitDone_rxbuf (s : State) : (s.emitDone).rxbuf = s.rxbuf := rfl
@[simp] theorem State.emitDone_scr (s : State) : (s.emitDone).scr = s.scr := rfl
@[simp] theorem State.emitDone_txbuf (s : State) : (s.emitDone).txbuf = s.txbuf := rfl
@[simp] theorem State.emitDone_ntrace (s : State) : (s.emitDone).ntrace = s.ntrace := rfl
@[simp] theorem State.emitDone_phase (s : State) : (s.emitDone).phase = .idle := rfl
@[simp] theorem State.emitDone_held (s : State) : (s.emitDone).held = s.held := rfl
@[simp] theorem State.emitDone_inputs (s : State) : (s.emitDone).inputs = s.inputs := rfl
@[simp] theorem State.emitDone_ptrace (s : State) : (s.emitDone).ptrace = s.ptrace ++ [.done] := rfl
@[simp] theorem State.emitDone_epoch (s : State) : (s.emitDone).epoch = s.epoch := rfl
@[simp] theorem State.emitDone_lowercase (s : State) : (s.emitDone).lowercase = s.lowercase := rfl

/-! ## `emitNotify` -/

@[simp] theorem State.emitNotify_status (s : State) : (s.emitNotify).status = s.status := rfl
@[simp] theorem State.emitNotify_len (s : State) : (s.emitNotify).len = s.len := rfl
@[simp] theorem State.emitNotify_val (s : State) : (s.emitNotify).val = s.val := rfl
@[simp] theorem State.emitNotify_sel (s : State) : (s.emitNotify).sel = s.sel := rfl
@[simp] theorem State.emitNotify_crc (s : State) : (s.emitNotify).crc = s.crc := rfl
@[simp] theorem State.emitNotify_outlen (s : State) : (s.emitNotify).outlen = s.outlen := rfl
@[simp] theorem State.emitNotify_frames (s : State) : (s.emitNotify).frames = s.frames := rfl
@[simp] theorem State.emitNotify_notifs (s : State) : (s.emitNotify).notifs = s.notifs + 1 := rfl
@[simp] theorem State.emitNotify_ignored (s : State) : (s.emitNotify).ignored = s.ignored := rfl
@[simp] theorem State.emitNotify_stopwhy (s : State) : (s.emitNotify).stopwhy = s.stopwhy := rfl
@[simp] theorem State.emitNotify_hcur (s : State) : (s.emitNotify).hcur = s.hcur := rfl
@[simp] theorem State.emitNotify_bcur (s : State) : (s.emitNotify).bcur = s.bcur := rfl
@[simp] theorem State.emitNotify_ds (s : State) : (s.emitNotify).ds = s.ds := rfl
@[simp] theorem State.emitNotify_rxbuf (s : State) : (s.emitNotify).rxbuf = s.rxbuf := rfl
@[simp] theorem State.emitNotify_scr (s : State) : (s.emitNotify).scr = s.scr := rfl
@[simp] theorem State.emitNotify_txbuf (s : State) : (s.emitNotify).txbuf = s.txbuf := rfl
@[simp] theorem State.emitNotify_ntrace (s : State) : (s.emitNotify).ntrace = s.ntrace ++ [s.ds] := rfl
@[simp] theorem State.emitNotify_phase (s : State) : (s.emitNotify).phase = s.phase := rfl
@[simp] theorem State.emitNotify_held (s : State) : (s.emitNotify).held = s.held := rfl
@[simp] theorem State.emitNotify_inputs (s : State) : (s.emitNotify).inputs = s.inputs := rfl
@[simp] theorem State.emitNotify_ptrace (s : State) : (s.emitNotify).ptrace = s.ptrace ++ [.notify] := rfl
@[simp] theorem State.emitNotify_epoch (s : State) : (s.emitNotify).epoch = s.epoch := rfl
@[simp] theorem State.emitNotify_lowercase (s : State) : (s.emitNotify).lowercase = s.lowercase := rfl

/-! ## `returnValue` -/

@[simp] theorem State.returnValue_status (s : State) (v : Word) : (s.returnValue v).status = s.status := rfl
@[simp] theorem State.returnValue_len (s : State) (v : Word) : (s.returnValue v).len = s.len := rfl
@[simp] theorem State.returnValue_val (s : State) (v : Word) : (s.returnValue v).val = s.val := rfl
@[simp] theorem State.returnValue_sel (s : State) (v : Word) : (s.returnValue v).sel = s.sel := rfl
@[simp] theorem State.returnValue_crc (s : State) (v : Word) : (s.returnValue v).crc = s.crc := rfl
@[simp] theorem State.returnValue_outlen (s : State) (v : Word) : (s.returnValue v).outlen = s.outlen := rfl
@[simp] theorem State.returnValue_frames (s : State) (v : Word) : (s.returnValue v).frames = s.frames := rfl
@[simp] theorem State.returnValue_notifs (s : State) (v : Word) : (s.returnValue v).notifs = s.notifs := rfl
@[simp] theorem State.returnValue_ignored (s : State) (v : Word) : (s.returnValue v).ignored = s.ignored := rfl
@[simp] theorem State.returnValue_stopwhy (s : State) (v : Word) : (s.returnValue v).stopwhy = s.stopwhy := rfl
@[simp] theorem State.returnValue_hcur (s : State) (v : Word) : (s.returnValue v).hcur = s.hcur := rfl
@[simp] theorem State.returnValue_bcur (s : State) (v : Word) : (s.returnValue v).bcur = s.bcur := rfl
@[simp] theorem State.returnValue_ds (s : State) (v : Word) : (s.returnValue v).ds = s.ds := rfl
@[simp] theorem State.returnValue_rxbuf (s : State) (v : Word) : (s.returnValue v).rxbuf = s.rxbuf := rfl
@[simp] theorem State.returnValue_scr (s : State) (v : Word) : (s.returnValue v).scr = s.scr := rfl
@[simp] theorem State.returnValue_txbuf (s : State) (v : Word) : (s.returnValue v).txbuf = s.txbuf := rfl
@[simp] theorem State.returnValue_ntrace (s : State) (v : Word) : (s.returnValue v).ntrace = s.ntrace := rfl
@[simp] theorem State.returnValue_phase (s : State) (v : Word) : (s.returnValue v).phase = s.phase := rfl
@[simp] theorem State.returnValue_held (s : State) (v : Word) : (s.returnValue v).held = s.held := rfl
@[simp] theorem State.returnValue_inputs (s : State) (v : Word) : (s.returnValue v).inputs = s.inputs := rfl
@[simp] theorem State.returnValue_ptrace (s : State) (v : Word) : (s.returnValue v).ptrace = s.ptrace ++ [.returned v] := rfl
@[simp] theorem State.returnValue_epoch (s : State) (v : Word) : (s.returnValue v).epoch = s.epoch := rfl
@[simp] theorem State.returnValue_lowercase (s : State) (v : Word) : (s.returnValue v).lowercase = s.lowercase := rfl

/-! ## `refuse` -/

@[simp] theorem State.refuse_status (s : State) (c : RefuseCode) : (s.refuse c).status = statusOfRefusal c := rfl
@[simp] theorem State.refuse_len (s : State) (c : RefuseCode) : (s.refuse c).len = s.len := rfl
@[simp] theorem State.refuse_val (s : State) (c : RefuseCode) : (s.refuse c).val = s.val := rfl
@[simp] theorem State.refuse_sel (s : State) (c : RefuseCode) : (s.refuse c).sel = s.sel := rfl
@[simp] theorem State.refuse_crc (s : State) (c : RefuseCode) : (s.refuse c).crc = s.crc := rfl
@[simp] theorem State.refuse_outlen (s : State) (c : RefuseCode) : (s.refuse c).outlen = s.outlen := rfl
@[simp] theorem State.refuse_frames (s : State) (c : RefuseCode) : (s.refuse c).frames = s.frames := rfl
@[simp] theorem State.refuse_notifs (s : State) (c : RefuseCode) : (s.refuse c).notifs = s.notifs := rfl
@[simp] theorem State.refuse_ignored (s : State) (c : RefuseCode) : (s.refuse c).ignored = s.ignored := rfl
@[simp] theorem State.refuse_stopwhy (s : State) (c : RefuseCode) : (s.refuse c).stopwhy = s.stopwhy := rfl
@[simp] theorem State.refuse_hcur (s : State) (c : RefuseCode) : (s.refuse c).hcur = s.hcur := rfl
@[simp] theorem State.refuse_bcur (s : State) (c : RefuseCode) : (s.refuse c).bcur = s.bcur := rfl
@[simp] theorem State.refuse_ds (s : State) (c : RefuseCode) : (s.refuse c).ds = s.ds := rfl
@[simp] theorem State.refuse_rxbuf (s : State) (c : RefuseCode) : (s.refuse c).rxbuf = s.rxbuf := rfl
@[simp] theorem State.refuse_scr (s : State) (c : RefuseCode) : (s.refuse c).scr = s.scr := rfl
@[simp] theorem State.refuse_txbuf (s : State) (c : RefuseCode) : (s.refuse c).txbuf = s.txbuf := rfl
@[simp] theorem State.refuse_ntrace (s : State) (c : RefuseCode) : (s.refuse c).ntrace = s.ntrace := rfl
@[simp] theorem State.refuse_phase (s : State) (c : RefuseCode) : (s.refuse c).phase = .idle := rfl
@[simp] theorem State.refuse_held (s : State) (c : RefuseCode) : (s.refuse c).held = s.held := rfl
@[simp] theorem State.refuse_inputs (s : State) (c : RefuseCode) : (s.refuse c).inputs = s.inputs := rfl
@[simp] theorem State.refuse_ptrace (s : State) (c : RefuseCode) : (s.refuse c).ptrace = s.ptrace ++ [.done] := rfl
@[simp] theorem State.refuse_epoch (s : State) (c : RefuseCode) : (s.refuse c).epoch = s.epoch := rfl
@[simp] theorem State.refuse_lowercase (s : State) (c : RefuseCode) : (s.refuse c).lowercase = s.lowercase := rfl

/-! ## `setDs` -/

@[simp] theorem State.setDs_status (s : State) (d : DeviceState) : (s.setDs d).status = s.status := rfl
@[simp] theorem State.setDs_len (s : State) (d : DeviceState) : (s.setDs d).len = s.len := rfl
@[simp] theorem State.setDs_val (s : State) (d : DeviceState) : (s.setDs d).val = s.val := rfl
@[simp] theorem State.setDs_sel (s : State) (d : DeviceState) : (s.setDs d).sel = s.sel := rfl
@[simp] theorem State.setDs_crc (s : State) (d : DeviceState) : (s.setDs d).crc = s.crc := rfl
@[simp] theorem State.setDs_outlen (s : State) (d : DeviceState) : (s.setDs d).outlen = s.outlen := rfl
@[simp] theorem State.setDs_frames (s : State) (d : DeviceState) : (s.setDs d).frames = s.frames := rfl
@[simp] theorem State.setDs_notifs (s : State) (d : DeviceState) : (s.setDs d).notifs = s.notifs := rfl
@[simp] theorem State.setDs_ignored (s : State) (d : DeviceState) : (s.setDs d).ignored = s.ignored := rfl
@[simp] theorem State.setDs_stopwhy (s : State) (d : DeviceState) : (s.setDs d).stopwhy = s.stopwhy := rfl
@[simp] theorem State.setDs_hcur (s : State) (d : DeviceState) : (s.setDs d).hcur = s.hcur := rfl
@[simp] theorem State.setDs_bcur (s : State) (d : DeviceState) : (s.setDs d).bcur = s.bcur := rfl
@[simp] theorem State.setDs_ds (s : State) (d : DeviceState) : (s.setDs d).ds = d := rfl
@[simp] theorem State.setDs_rxbuf (s : State) (d : DeviceState) : (s.setDs d).rxbuf = s.rxbuf := rfl
@[simp] theorem State.setDs_scr (s : State) (d : DeviceState) : (s.setDs d).scr = s.scr := rfl
@[simp] theorem State.setDs_txbuf (s : State) (d : DeviceState) : (s.setDs d).txbuf = s.txbuf := rfl
@[simp] theorem State.setDs_ntrace (s : State) (d : DeviceState) : (s.setDs d).ntrace = s.ntrace := rfl
@[simp] theorem State.setDs_phase (s : State) (d : DeviceState) : (s.setDs d).phase = s.phase := rfl
@[simp] theorem State.setDs_held (s : State) (d : DeviceState) : (s.setDs d).held = s.held := rfl
@[simp] theorem State.setDs_inputs (s : State) (d : DeviceState) : (s.setDs d).inputs = s.inputs := rfl
@[simp] theorem State.setDs_ptrace (s : State) (d : DeviceState) : (s.setDs d).ptrace = s.ptrace := rfl
@[simp] theorem State.setDs_epoch (s : State) (d : DeviceState) : (s.setDs d).epoch = s.epoch := rfl
@[simp] theorem State.setDs_lowercase (s : State) (d : DeviceState) : (s.setDs d).lowercase = s.lowercase := rfl

/-! ## `setField` -/

@[simp] theorem State.setField_status (s : State) (f : Setting) (v : Byte) : (s.setField f v).status = s.status := rfl
@[simp] theorem State.setField_len (s : State) (f : Setting) (v : Byte) : (s.setField f v).len = s.len := rfl
@[simp] theorem State.setField_val (s : State) (f : Setting) (v : Byte) : (s.setField f v).val = s.val := rfl
@[simp] theorem State.setField_sel (s : State) (f : Setting) (v : Byte) : (s.setField f v).sel = s.sel := rfl
@[simp] theorem State.setField_crc (s : State) (f : Setting) (v : Byte) : (s.setField f v).crc = s.crc := rfl
@[simp] theorem State.setField_outlen (s : State) (f : Setting) (v : Byte) : (s.setField f v).outlen = s.outlen := rfl
@[simp] theorem State.setField_frames (s : State) (f : Setting) (v : Byte) : (s.setField f v).frames = s.frames := rfl
@[simp] theorem State.setField_notifs (s : State) (f : Setting) (v : Byte) : (s.setField f v).notifs = s.notifs := rfl
@[simp] theorem State.setField_ignored (s : State) (f : Setting) (v : Byte) : (s.setField f v).ignored = s.ignored := rfl
@[simp] theorem State.setField_stopwhy (s : State) (f : Setting) (v : Byte) : (s.setField f v).stopwhy = s.stopwhy := rfl
@[simp] theorem State.setField_hcur (s : State) (f : Setting) (v : Byte) : (s.setField f v).hcur = s.hcur := rfl
@[simp] theorem State.setField_bcur (s : State) (f : Setting) (v : Byte) : (s.setField f v).bcur = s.bcur := rfl
@[simp] theorem State.setField_ds (s : State) (f : Setting) (v : Byte) : (s.setField f v).ds = s.ds.set f v := rfl
@[simp] theorem State.setField_rxbuf (s : State) (f : Setting) (v : Byte) : (s.setField f v).rxbuf = s.rxbuf := rfl
@[simp] theorem State.setField_scr (s : State) (f : Setting) (v : Byte) : (s.setField f v).scr = s.scr := rfl
@[simp] theorem State.setField_txbuf (s : State) (f : Setting) (v : Byte) : (s.setField f v).txbuf = s.txbuf := rfl
@[simp] theorem State.setField_ntrace (s : State) (f : Setting) (v : Byte) : (s.setField f v).ntrace = s.ntrace := rfl
@[simp] theorem State.setField_phase (s : State) (f : Setting) (v : Byte) : (s.setField f v).phase = s.phase := rfl
@[simp] theorem State.setField_held (s : State) (f : Setting) (v : Byte) : (s.setField f v).held = s.held := rfl
@[simp] theorem State.setField_inputs (s : State) (f : Setting) (v : Byte) : (s.setField f v).inputs = s.inputs := rfl
@[simp] theorem State.setField_ptrace (s : State) (f : Setting) (v : Byte) : (s.setField f v).ptrace = s.ptrace := rfl
@[simp] theorem State.setField_epoch (s : State) (f : Setting) (v : Byte) : (s.setField f v).epoch = s.epoch := rfl
@[simp] theorem State.setField_lowercase (s : State) (f : Setting) (v : Byte) : (s.setField f v).lowercase = s.lowercase := rfl

/-! ## `clearParse` -/

@[simp] theorem State.clearParse_status (s : State) : (s.clearParse).status = s.status := rfl
@[simp] theorem State.clearParse_len (s : State) : (s.clearParse).len = s.len := rfl
@[simp] theorem State.clearParse_val (s : State) : (s.clearParse).val = s.val := rfl
@[simp] theorem State.clearParse_sel (s : State) : (s.clearParse).sel = s.sel := rfl
@[simp] theorem State.clearParse_crc (s : State) : (s.clearParse).crc = 0 := rfl
@[simp] theorem State.clearParse_outlen (s : State) : (s.clearParse).outlen = s.outlen := rfl
@[simp] theorem State.clearParse_frames (s : State) : (s.clearParse).frames = 0 := rfl
@[simp] theorem State.clearParse_notifs (s : State) : (s.clearParse).notifs = 0 := rfl
@[simp] theorem State.clearParse_ignored (s : State) : (s.clearParse).ignored = 0 := rfl
@[simp] theorem State.clearParse_stopwhy (s : State) : (s.clearParse).stopwhy = 0 := rfl
@[simp] theorem State.clearParse_hcur (s : State) : (s.clearParse).hcur = 0 := rfl
@[simp] theorem State.clearParse_bcur (s : State) : (s.clearParse).bcur = 0 := rfl
@[simp] theorem State.clearParse_ds (s : State) : (s.clearParse).ds = s.ds := rfl
@[simp] theorem State.clearParse_rxbuf (s : State) : (s.clearParse).rxbuf = s.rxbuf := rfl
@[simp] theorem State.clearParse_scr (s : State) : (s.clearParse).scr = s.scr := rfl
@[simp] theorem State.clearParse_txbuf (s : State) : (s.clearParse).txbuf = s.txbuf := rfl
@[simp] theorem State.clearParse_ntrace (s : State) : (s.clearParse).ntrace = s.ntrace := rfl
@[simp] theorem State.clearParse_phase (s : State) : (s.clearParse).phase = s.phase := rfl
@[simp] theorem State.clearParse_held (s : State) : (s.clearParse).held = s.held := rfl
@[simp] theorem State.clearParse_inputs (s : State) : (s.clearParse).inputs = s.inputs := rfl
@[simp] theorem State.clearParse_ptrace (s : State) : (s.clearParse).ptrace = s.ptrace := rfl
@[simp] theorem State.clearParse_epoch (s : State) : (s.clearParse).epoch = s.epoch := rfl
@[simp] theorem State.clearParse_lowercase (s : State) : (s.clearParse).lowercase = s.lowercase := rfl

/-! ## `countFrame` -/

@[simp] theorem State.countFrame_status (s : State) : (s.countFrame).status = s.status := rfl
@[simp] theorem State.countFrame_len (s : State) : (s.countFrame).len = s.len := rfl
@[simp] theorem State.countFrame_val (s : State) : (s.countFrame).val = s.val := rfl
@[simp] theorem State.countFrame_sel (s : State) : (s.countFrame).sel = s.sel := rfl
@[simp] theorem State.countFrame_crc (s : State) : (s.countFrame).crc = s.crc := rfl
@[simp] theorem State.countFrame_outlen (s : State) : (s.countFrame).outlen = s.outlen := rfl
@[simp] theorem State.countFrame_frames (s : State) : (s.countFrame).frames = s.frames + 1 := rfl
@[simp] theorem State.countFrame_notifs (s : State) : (s.countFrame).notifs = s.notifs := rfl
@[simp] theorem State.countFrame_ignored (s : State) : (s.countFrame).ignored = s.ignored := rfl
@[simp] theorem State.countFrame_stopwhy (s : State) : (s.countFrame).stopwhy = s.stopwhy := rfl
@[simp] theorem State.countFrame_hcur (s : State) : (s.countFrame).hcur = s.hcur := rfl
@[simp] theorem State.countFrame_bcur (s : State) : (s.countFrame).bcur = s.bcur := rfl
@[simp] theorem State.countFrame_ds (s : State) : (s.countFrame).ds = s.ds := rfl
@[simp] theorem State.countFrame_rxbuf (s : State) : (s.countFrame).rxbuf = s.rxbuf := rfl
@[simp] theorem State.countFrame_scr (s : State) : (s.countFrame).scr = s.scr := rfl
@[simp] theorem State.countFrame_txbuf (s : State) : (s.countFrame).txbuf = s.txbuf := rfl
@[simp] theorem State.countFrame_ntrace (s : State) : (s.countFrame).ntrace = s.ntrace := rfl
@[simp] theorem State.countFrame_phase (s : State) : (s.countFrame).phase = s.phase := rfl
@[simp] theorem State.countFrame_held (s : State) : (s.countFrame).held = s.held := rfl
@[simp] theorem State.countFrame_inputs (s : State) : (s.countFrame).inputs = s.inputs := rfl
@[simp] theorem State.countFrame_ptrace (s : State) : (s.countFrame).ptrace = s.ptrace := rfl
@[simp] theorem State.countFrame_epoch (s : State) : (s.countFrame).epoch = s.epoch := rfl
@[simp] theorem State.countFrame_lowercase (s : State) : (s.countFrame).lowercase = s.lowercase := rfl

/-! ## `countIgnored` -/

@[simp] theorem State.countIgnored_status (s : State) : (s.countIgnored).status = s.status := rfl
@[simp] theorem State.countIgnored_len (s : State) : (s.countIgnored).len = s.len := rfl
@[simp] theorem State.countIgnored_val (s : State) : (s.countIgnored).val = s.val := rfl
@[simp] theorem State.countIgnored_sel (s : State) : (s.countIgnored).sel = s.sel := rfl
@[simp] theorem State.countIgnored_crc (s : State) : (s.countIgnored).crc = s.crc := rfl
@[simp] theorem State.countIgnored_outlen (s : State) : (s.countIgnored).outlen = s.outlen := rfl
@[simp] theorem State.countIgnored_frames (s : State) : (s.countIgnored).frames = s.frames := rfl
@[simp] theorem State.countIgnored_notifs (s : State) : (s.countIgnored).notifs = s.notifs := rfl
@[simp] theorem State.countIgnored_ignored (s : State) : (s.countIgnored).ignored = s.ignored + 1 := rfl
@[simp] theorem State.countIgnored_stopwhy (s : State) : (s.countIgnored).stopwhy = s.stopwhy := rfl
@[simp] theorem State.countIgnored_hcur (s : State) : (s.countIgnored).hcur = s.hcur := rfl
@[simp] theorem State.countIgnored_bcur (s : State) : (s.countIgnored).bcur = s.bcur := rfl
@[simp] theorem State.countIgnored_ds (s : State) : (s.countIgnored).ds = s.ds := rfl
@[simp] theorem State.countIgnored_rxbuf (s : State) : (s.countIgnored).rxbuf = s.rxbuf := rfl
@[simp] theorem State.countIgnored_scr (s : State) : (s.countIgnored).scr = s.scr := rfl
@[simp] theorem State.countIgnored_txbuf (s : State) : (s.countIgnored).txbuf = s.txbuf := rfl
@[simp] theorem State.countIgnored_ntrace (s : State) : (s.countIgnored).ntrace = s.ntrace := rfl
@[simp] theorem State.countIgnored_phase (s : State) : (s.countIgnored).phase = s.phase := rfl
@[simp] theorem State.countIgnored_held (s : State) : (s.countIgnored).held = s.held := rfl
@[simp] theorem State.countIgnored_inputs (s : State) : (s.countIgnored).inputs = s.inputs := rfl
@[simp] theorem State.countIgnored_ptrace (s : State) : (s.countIgnored).ptrace = s.ptrace := rfl
@[simp] theorem State.countIgnored_epoch (s : State) : (s.countIgnored).epoch = s.epoch := rfl
@[simp] theorem State.countIgnored_lowercase (s : State) : (s.countIgnored).lowercase = s.lowercase := rfl

/-! ## `advance` -/

@[simp] theorem State.advance_status (s : State) (l : Nat) : (s.advance l).status = s.status := rfl
@[simp] theorem State.advance_len (s : State) (l : Nat) : (s.advance l).len = s.len := rfl
@[simp] theorem State.advance_val (s : State) (l : Nat) : (s.advance l).val = s.val := rfl
@[simp] theorem State.advance_sel (s : State) (l : Nat) : (s.advance l).sel = s.sel := rfl
@[simp] theorem State.advance_crc (s : State) (l : Nat) : (s.advance l).crc = s.crc := rfl
@[simp] theorem State.advance_outlen (s : State) (l : Nat) : (s.advance l).outlen = s.outlen := rfl
@[simp] theorem State.advance_frames (s : State) (l : Nat) : (s.advance l).frames = s.frames := rfl
@[simp] theorem State.advance_notifs (s : State) (l : Nat) : (s.advance l).notifs = s.notifs := rfl
@[simp] theorem State.advance_ignored (s : State) (l : Nat) : (s.advance l).ignored = s.ignored := rfl
@[simp] theorem State.advance_stopwhy (s : State) (l : Nat) : (s.advance l).stopwhy = s.stopwhy := rfl
@[simp] theorem State.advance_hcur (s : State) (l : Nat) : (s.advance l).hcur = s.hcur + BitVec.ofNat 12 (2 * (3 + l)) := rfl
@[simp] theorem State.advance_bcur (s : State) (l : Nat) : (s.advance l).bcur = s.bcur + BitVec.ofNat 11 (3 + l) := rfl
@[simp] theorem State.advance_ds (s : State) (l : Nat) : (s.advance l).ds = s.ds := rfl
@[simp] theorem State.advance_rxbuf (s : State) (l : Nat) : (s.advance l).rxbuf = s.rxbuf := rfl
@[simp] theorem State.advance_scr (s : State) (l : Nat) : (s.advance l).scr = s.scr := rfl
@[simp] theorem State.advance_txbuf (s : State) (l : Nat) : (s.advance l).txbuf = s.txbuf := rfl
@[simp] theorem State.advance_ntrace (s : State) (l : Nat) : (s.advance l).ntrace = s.ntrace := rfl
@[simp] theorem State.advance_phase (s : State) (l : Nat) : (s.advance l).phase = s.phase := rfl
@[simp] theorem State.advance_held (s : State) (l : Nat) : (s.advance l).held = s.held := rfl
@[simp] theorem State.advance_inputs (s : State) (l : Nat) : (s.advance l).inputs = s.inputs := rfl
@[simp] theorem State.advance_ptrace (s : State) (l : Nat) : (s.advance l).ptrace = s.ptrace := rfl
@[simp] theorem State.advance_epoch (s : State) (l : Nat) : (s.advance l).epoch = s.epoch := rfl
@[simp] theorem State.advance_lowercase (s : State) (l : Nat) : (s.advance l).lowercase = s.lowercase := rfl

/-! ## `stopParse` -/

@[simp] theorem State.stopParse_status (s : State) (r : StopReason) : (s.stopParse r).status = s.status := rfl
@[simp] theorem State.stopParse_len (s : State) (r : StopReason) : (s.stopParse r).len = s.len := rfl
@[simp] theorem State.stopParse_val (s : State) (r : StopReason) : (s.stopParse r).val = s.val := rfl
@[simp] theorem State.stopParse_sel (s : State) (r : StopReason) : (s.stopParse r).sel = s.sel := rfl
@[simp] theorem State.stopParse_crc (s : State) (r : StopReason) : (s.stopParse r).crc = stopCrc s.crc r := rfl
@[simp] theorem State.stopParse_outlen (s : State) (r : StopReason) : (s.stopParse r).outlen = s.outlen := rfl
@[simp] theorem State.stopParse_frames (s : State) (r : StopReason) : (s.stopParse r).frames = s.frames := rfl
@[simp] theorem State.stopParse_notifs (s : State) (r : StopReason) : (s.stopParse r).notifs = s.notifs := rfl
@[simp] theorem State.stopParse_ignored (s : State) (r : StopReason) : (s.stopParse r).ignored = s.ignored := rfl
@[simp] theorem State.stopParse_stopwhy (s : State) (r : StopReason) : (s.stopParse r).stopwhy = stopNumber r := rfl
@[simp] theorem State.stopParse_hcur (s : State) (r : StopReason) : (s.stopParse r).hcur = s.hcur := rfl
@[simp] theorem State.stopParse_bcur (s : State) (r : StopReason) : (s.stopParse r).bcur = s.bcur := rfl
@[simp] theorem State.stopParse_ds (s : State) (r : StopReason) : (s.stopParse r).ds = s.ds := rfl
@[simp] theorem State.stopParse_rxbuf (s : State) (r : StopReason) : (s.stopParse r).rxbuf = s.rxbuf := rfl
@[simp] theorem State.stopParse_scr (s : State) (r : StopReason) : (s.stopParse r).scr = s.scr := rfl
@[simp] theorem State.stopParse_txbuf (s : State) (r : StopReason) : (s.stopParse r).txbuf = s.txbuf := rfl
@[simp] theorem State.stopParse_ntrace (s : State) (r : StopReason) : (s.stopParse r).ntrace = s.ntrace := rfl
@[simp] theorem State.stopParse_phase (s : State) (r : StopReason) : (s.stopParse r).phase = .idle := rfl
@[simp] theorem State.stopParse_held (s : State) (r : StopReason) : (s.stopParse r).held = s.held := rfl
@[simp] theorem State.stopParse_inputs (s : State) (r : StopReason) : (s.stopParse r).inputs = s.inputs := rfl
@[simp] theorem State.stopParse_ptrace (s : State) (r : StopReason) : (s.stopParse r).ptrace = s.ptrace ++ [.done] := rfl
@[simp] theorem State.stopParse_epoch (s : State) (r : StopReason) : (s.stopParse r).epoch = s.epoch := rfl
@[simp] theorem State.stopParse_lowercase (s : State) (r : StopReason) : (s.stopParse r).lowercase = s.lowercase := rfl

/-! ## `decodeText` -/

@[simp] theorem State.decodeText_status (s : State) : (s.decodeText).status = s.status := rfl
@[simp] theorem State.decodeText_len (s : State) : (s.decodeText).len = s.len := rfl
@[simp] theorem State.decodeText_val (s : State) : (s.decodeText).val = s.val := rfl
@[simp] theorem State.decodeText_sel (s : State) : (s.decodeText).sel = s.sel := rfl
@[simp] theorem State.decodeText_crc (s : State) : (s.decodeText).crc = s.crc := rfl
@[simp] theorem State.decodeText_outlen (s : State) : (s.decodeText).outlen = s.len >>> 1 := rfl
@[simp] theorem State.decodeText_frames (s : State) : (s.decodeText).frames = s.frames := rfl
@[simp] theorem State.decodeText_notifs (s : State) : (s.decodeText).notifs = s.notifs := rfl
@[simp] theorem State.decodeText_ignored (s : State) : (s.decodeText).ignored = s.ignored := rfl
@[simp] theorem State.decodeText_stopwhy (s : State) : (s.decodeText).stopwhy = s.stopwhy := rfl
@[simp] theorem State.decodeText_hcur (s : State) : (s.decodeText).hcur = s.hcur := rfl
@[simp] theorem State.decodeText_bcur (s : State) : (s.decodeText).bcur = s.bcur := rfl
@[simp] theorem State.decodeText_ds (s : State) : (s.decodeText).ds = s.ds := rfl
@[simp] theorem State.decodeText_rxbuf (s : State) : (s.decodeText).rxbuf = s.rxbuf := rfl
@[simp] theorem State.decodeText_scr (s : State) : (s.decodeText).scr = s.scr.storeSeq 0 (decText s.lowercase (s.memRead .rxbuf 0 s.len.toNat)) := rfl
@[simp] theorem State.decodeText_txbuf (s : State) : (s.decodeText).txbuf = s.txbuf := rfl
@[simp] theorem State.decodeText_ntrace (s : State) : (s.decodeText).ntrace = s.ntrace := rfl
@[simp] theorem State.decodeText_phase (s : State) : (s.decodeText).phase = s.phase := rfl
@[simp] theorem State.decodeText_held (s : State) : (s.decodeText).held = s.held := rfl
@[simp] theorem State.decodeText_inputs (s : State) : (s.decodeText).inputs = s.inputs := rfl
@[simp] theorem State.decodeText_ptrace (s : State) : (s.decodeText).ptrace = s.ptrace := rfl
@[simp] theorem State.decodeText_epoch (s : State) : (s.decodeText).epoch = s.epoch := rfl
@[simp] theorem State.decodeText_lowercase (s : State) : (s.decodeText).lowercase = s.lowercase := rfl

/-! ## `acceptUpdate` -/

@[simp] theorem State.acceptUpdate_status (s : State) (d : DeviceState) (l : Nat) : (s.acceptUpdate d l).status = s.status := rfl
@[simp] theorem State.acceptUpdate_len (s : State) (d : DeviceState) (l : Nat) : (s.acceptUpdate d l).len = s.len := rfl
@[simp] theorem State.acceptUpdate_val (s : State) (d : DeviceState) (l : Nat) : (s.acceptUpdate d l).val = s.val := rfl
@[simp] theorem State.acceptUpdate_sel (s : State) (d : DeviceState) (l : Nat) : (s.acceptUpdate d l).sel = s.sel := rfl
@[simp] theorem State.acceptUpdate_crc (s : State) (d : DeviceState) (l : Nat) : (s.acceptUpdate d l).crc = s.crc := rfl
@[simp] theorem State.acceptUpdate_outlen (s : State) (d : DeviceState) (l : Nat) : (s.acceptUpdate d l).outlen = s.outlen := rfl
@[simp] theorem State.acceptUpdate_frames (s : State) (d : DeviceState) (l : Nat) : (s.acceptUpdate d l).frames = s.frames + 1 := rfl
@[simp] theorem State.acceptUpdate_notifs (s : State) (d : DeviceState) (l : Nat) : (s.acceptUpdate d l).notifs = s.notifs + 1 := rfl
@[simp] theorem State.acceptUpdate_ignored (s : State) (d : DeviceState) (l : Nat) : (s.acceptUpdate d l).ignored = s.ignored := rfl
@[simp] theorem State.acceptUpdate_stopwhy (s : State) (d : DeviceState) (l : Nat) : (s.acceptUpdate d l).stopwhy = s.stopwhy := rfl
@[simp] theorem State.acceptUpdate_hcur (s : State) (d : DeviceState) (l : Nat) : (s.acceptUpdate d l).hcur = s.hcur + BitVec.ofNat 12 (2 * (3 + l)) := rfl
@[simp] theorem State.acceptUpdate_bcur (s : State) (d : DeviceState) (l : Nat) : (s.acceptUpdate d l).bcur = s.bcur + BitVec.ofNat 11 (3 + l) := rfl
@[simp] theorem State.acceptUpdate_ds (s : State) (d : DeviceState) (l : Nat) : (s.acceptUpdate d l).ds = d := rfl
@[simp] theorem State.acceptUpdate_rxbuf (s : State) (d : DeviceState) (l : Nat) : (s.acceptUpdate d l).rxbuf = s.rxbuf := rfl
@[simp] theorem State.acceptUpdate_scr (s : State) (d : DeviceState) (l : Nat) : (s.acceptUpdate d l).scr = s.scr := rfl
@[simp] theorem State.acceptUpdate_txbuf (s : State) (d : DeviceState) (l : Nat) : (s.acceptUpdate d l).txbuf = s.txbuf := rfl
@[simp] theorem State.acceptUpdate_ntrace (s : State) (d : DeviceState) (l : Nat) : (s.acceptUpdate d l).ntrace = s.ntrace ++ [d] := rfl
@[simp] theorem State.acceptUpdate_phase (s : State) (d : DeviceState) (l : Nat) : (s.acceptUpdate d l).phase = s.phase := rfl
@[simp] theorem State.acceptUpdate_held (s : State) (d : DeviceState) (l : Nat) : (s.acceptUpdate d l).held = s.held := rfl
@[simp] theorem State.acceptUpdate_inputs (s : State) (d : DeviceState) (l : Nat) : (s.acceptUpdate d l).inputs = s.inputs := rfl
@[simp] theorem State.acceptUpdate_ptrace (s : State) (d : DeviceState) (l : Nat) : (s.acceptUpdate d l).ptrace = s.ptrace ++ [.notify] := rfl
@[simp] theorem State.acceptUpdate_epoch (s : State) (d : DeviceState) (l : Nat) : (s.acceptUpdate d l).epoch = s.epoch := rfl
@[simp] theorem State.acceptUpdate_lowercase (s : State) (d : DeviceState) (l : Nat) : (s.acceptUpdate d l).lowercase = s.lowercase := rfl

/-! ## `acceptIgnored` -/

@[simp] theorem State.acceptIgnored_status (s : State) (l : Nat) : (s.acceptIgnored l).status = s.status := rfl
@[simp] theorem State.acceptIgnored_len (s : State) (l : Nat) : (s.acceptIgnored l).len = s.len := rfl
@[simp] theorem State.acceptIgnored_val (s : State) (l : Nat) : (s.acceptIgnored l).val = s.val := rfl
@[simp] theorem State.acceptIgnored_sel (s : State) (l : Nat) : (s.acceptIgnored l).sel = s.sel := rfl
@[simp] theorem State.acceptIgnored_crc (s : State) (l : Nat) : (s.acceptIgnored l).crc = s.crc := rfl
@[simp] theorem State.acceptIgnored_outlen (s : State) (l : Nat) : (s.acceptIgnored l).outlen = s.outlen := rfl
@[simp] theorem State.acceptIgnored_frames (s : State) (l : Nat) : (s.acceptIgnored l).frames = s.frames + 1 := rfl
@[simp] theorem State.acceptIgnored_notifs (s : State) (l : Nat) : (s.acceptIgnored l).notifs = s.notifs := rfl
@[simp] theorem State.acceptIgnored_ignored (s : State) (l : Nat) : (s.acceptIgnored l).ignored = s.ignored + 1 := rfl
@[simp] theorem State.acceptIgnored_stopwhy (s : State) (l : Nat) : (s.acceptIgnored l).stopwhy = s.stopwhy := rfl
@[simp] theorem State.acceptIgnored_hcur (s : State) (l : Nat) : (s.acceptIgnored l).hcur = s.hcur + BitVec.ofNat 12 (2 * (3 + l)) := rfl
@[simp] theorem State.acceptIgnored_bcur (s : State) (l : Nat) : (s.acceptIgnored l).bcur = s.bcur + BitVec.ofNat 11 (3 + l) := rfl
@[simp] theorem State.acceptIgnored_ds (s : State) (l : Nat) : (s.acceptIgnored l).ds = s.ds := rfl
@[simp] theorem State.acceptIgnored_rxbuf (s : State) (l : Nat) : (s.acceptIgnored l).rxbuf = s.rxbuf := rfl
@[simp] theorem State.acceptIgnored_scr (s : State) (l : Nat) : (s.acceptIgnored l).scr = s.scr := rfl
@[simp] theorem State.acceptIgnored_txbuf (s : State) (l : Nat) : (s.acceptIgnored l).txbuf = s.txbuf := rfl
@[simp] theorem State.acceptIgnored_ntrace (s : State) (l : Nat) : (s.acceptIgnored l).ntrace = s.ntrace := rfl
@[simp] theorem State.acceptIgnored_phase (s : State) (l : Nat) : (s.acceptIgnored l).phase = s.phase := rfl
@[simp] theorem State.acceptIgnored_held (s : State) (l : Nat) : (s.acceptIgnored l).held = s.held := rfl
@[simp] theorem State.acceptIgnored_inputs (s : State) (l : Nat) : (s.acceptIgnored l).inputs = s.inputs := rfl
@[simp] theorem State.acceptIgnored_ptrace (s : State) (l : Nat) : (s.acceptIgnored l).ptrace = s.ptrace := rfl
@[simp] theorem State.acceptIgnored_epoch (s : State) (l : Nat) : (s.acceptIgnored l).epoch = s.epoch := rfl
@[simp] theorem State.acceptIgnored_lowercase (s : State) (l : Nat) : (s.acceptIgnored l).lowercase = s.lowercase := rfl

/-! ## `resetWith` -/

@[simp] theorem State.resetWith_status (s : State) (rest : List Input) : (s.resetWith rest).status = 0 := rfl
@[simp] theorem State.resetWith_len (s : State) (rest : List Input) : (s.resetWith rest).len = 0 := rfl
@[simp] theorem State.resetWith_val (s : State) (rest : List Input) : (s.resetWith rest).val = 0 := rfl
@[simp] theorem State.resetWith_sel (s : State) (rest : List Input) : (s.resetWith rest).sel = 0 := rfl
@[simp] theorem State.resetWith_crc (s : State) (rest : List Input) : (s.resetWith rest).crc = 0 := rfl
@[simp] theorem State.resetWith_outlen (s : State) (rest : List Input) : (s.resetWith rest).outlen = 0 := rfl
@[simp] theorem State.resetWith_frames (s : State) (rest : List Input) : (s.resetWith rest).frames = 0 := rfl
@[simp] theorem State.resetWith_notifs (s : State) (rest : List Input) : (s.resetWith rest).notifs = 0 := rfl
@[simp] theorem State.resetWith_ignored (s : State) (rest : List Input) : (s.resetWith rest).ignored = 0 := rfl
@[simp] theorem State.resetWith_stopwhy (s : State) (rest : List Input) : (s.resetWith rest).stopwhy = 0 := rfl
@[simp] theorem State.resetWith_hcur (s : State) (rest : List Input) : (s.resetWith rest).hcur = 0 := rfl
@[simp] theorem State.resetWith_bcur (s : State) (rest : List Input) : (s.resetWith rest).bcur = 0 := rfl
@[simp] theorem State.resetWith_ds (s : State) (rest : List Input) : (s.resetWith rest).ds = .unknown := rfl
@[simp] theorem State.resetWith_rxbuf (s : State) (rest : List Input) : (s.resetWith rest).rxbuf = [] := rfl
@[simp] theorem State.resetWith_scr (s : State) (rest : List Input) : (s.resetWith rest).scr = [] := rfl
@[simp] theorem State.resetWith_txbuf (s : State) (rest : List Input) : (s.resetWith rest).txbuf = [] := rfl
@[simp] theorem State.resetWith_ntrace (s : State) (rest : List Input) : (s.resetWith rest).ntrace = [] := rfl
@[simp] theorem State.resetWith_phase (s : State) (rest : List Input) : (s.resetWith rest).phase = .idle := rfl
@[simp] theorem State.resetWith_held (s : State) (rest : List Input) : (s.resetWith rest).held = none := rfl
@[simp] theorem State.resetWith_inputs (s : State) (rest : List Input) : (s.resetWith rest).inputs = rest := rfl
@[simp] theorem State.resetWith_ptrace (s : State) (rest : List Input) : (s.resetWith rest).ptrace = abandoned (s.epoch + 1) s.held := rfl
@[simp] theorem State.resetWith_epoch (s : State) (rest : List Input) : (s.resetWith rest).epoch = s.epoch + 1 := rfl
@[simp] theorem State.resetWith_lowercase (s : State) (rest : List Input) : (s.resetWith rest).lowercase = s.lowercase := rfl

/-! ## `memWrite` -/

@[simp] theorem State.memWrite_status (s : State) (b : Buffer) (a : Nat) (vs : List Byte) : (s.memWrite b a vs).status = s.status := by cases b <;> rfl
@[simp] theorem State.memWrite_len (s : State) (b : Buffer) (a : Nat) (vs : List Byte) : (s.memWrite b a vs).len = s.len := by cases b <;> rfl
@[simp] theorem State.memWrite_val (s : State) (b : Buffer) (a : Nat) (vs : List Byte) : (s.memWrite b a vs).val = s.val := by cases b <;> rfl
@[simp] theorem State.memWrite_sel (s : State) (b : Buffer) (a : Nat) (vs : List Byte) : (s.memWrite b a vs).sel = s.sel := by cases b <;> rfl
@[simp] theorem State.memWrite_crc (s : State) (b : Buffer) (a : Nat) (vs : List Byte) : (s.memWrite b a vs).crc = s.crc := by cases b <;> rfl
@[simp] theorem State.memWrite_outlen (s : State) (b : Buffer) (a : Nat) (vs : List Byte) : (s.memWrite b a vs).outlen = s.outlen := by cases b <;> rfl
@[simp] theorem State.memWrite_frames (s : State) (b : Buffer) (a : Nat) (vs : List Byte) : (s.memWrite b a vs).frames = s.frames := by cases b <;> rfl
@[simp] theorem State.memWrite_notifs (s : State) (b : Buffer) (a : Nat) (vs : List Byte) : (s.memWrite b a vs).notifs = s.notifs := by cases b <;> rfl
@[simp] theorem State.memWrite_ignored (s : State) (b : Buffer) (a : Nat) (vs : List Byte) : (s.memWrite b a vs).ignored = s.ignored := by cases b <;> rfl
@[simp] theorem State.memWrite_stopwhy (s : State) (b : Buffer) (a : Nat) (vs : List Byte) : (s.memWrite b a vs).stopwhy = s.stopwhy := by cases b <;> rfl
@[simp] theorem State.memWrite_hcur (s : State) (b : Buffer) (a : Nat) (vs : List Byte) : (s.memWrite b a vs).hcur = s.hcur := by cases b <;> rfl
@[simp] theorem State.memWrite_bcur (s : State) (b : Buffer) (a : Nat) (vs : List Byte) : (s.memWrite b a vs).bcur = s.bcur := by cases b <;> rfl
@[simp] theorem State.memWrite_ds (s : State) (b : Buffer) (a : Nat) (vs : List Byte) : (s.memWrite b a vs).ds = s.ds := by cases b <;> rfl
@[simp] theorem State.memWrite_rxbuf_rxbuf (s : State) (a : Nat) (vs : List Byte) : (s.memWrite .rxbuf a vs).rxbuf = s.rxbuf.storeSeq a vs := rfl
@[simp] theorem State.memWrite_scr_rxbuf (s : State) (a : Nat) (vs : List Byte) : (s.memWrite .scr a vs).rxbuf = s.rxbuf := rfl
@[simp] theorem State.memWrite_txbuf_rxbuf (s : State) (a : Nat) (vs : List Byte) : (s.memWrite .txbuf a vs).rxbuf = s.rxbuf := rfl
@[simp] theorem State.memWrite_rxbuf_scr (s : State) (a : Nat) (vs : List Byte) : (s.memWrite .rxbuf a vs).scr = s.scr := rfl
@[simp] theorem State.memWrite_scr_scr (s : State) (a : Nat) (vs : List Byte) : (s.memWrite .scr a vs).scr = s.scr.storeSeq a vs := rfl
@[simp] theorem State.memWrite_txbuf_scr (s : State) (a : Nat) (vs : List Byte) : (s.memWrite .txbuf a vs).scr = s.scr := rfl
@[simp] theorem State.memWrite_rxbuf_txbuf (s : State) (a : Nat) (vs : List Byte) : (s.memWrite .rxbuf a vs).txbuf = s.txbuf := rfl
@[simp] theorem State.memWrite_scr_txbuf (s : State) (a : Nat) (vs : List Byte) : (s.memWrite .scr a vs).txbuf = s.txbuf := rfl
@[simp] theorem State.memWrite_txbuf_txbuf (s : State) (a : Nat) (vs : List Byte) : (s.memWrite .txbuf a vs).txbuf = s.txbuf.storeSeq a vs := rfl
@[simp] theorem State.memWrite_ntrace (s : State) (b : Buffer) (a : Nat) (vs : List Byte) : (s.memWrite b a vs).ntrace = s.ntrace := by cases b <;> rfl
@[simp] theorem State.memWrite_phase (s : State) (b : Buffer) (a : Nat) (vs : List Byte) : (s.memWrite b a vs).phase = s.phase := by cases b <;> rfl
@[simp] theorem State.memWrite_held (s : State) (b : Buffer) (a : Nat) (vs : List Byte) : (s.memWrite b a vs).held = s.held := by cases b <;> rfl
@[simp] theorem State.memWrite_inputs (s : State) (b : Buffer) (a : Nat) (vs : List Byte) : (s.memWrite b a vs).inputs = s.inputs := by cases b <;> rfl
@[simp] theorem State.memWrite_ptrace (s : State) (b : Buffer) (a : Nat) (vs : List Byte) : (s.memWrite b a vs).ptrace = s.ptrace := by cases b <;> rfl
@[simp] theorem State.memWrite_epoch (s : State) (b : Buffer) (a : Nat) (vs : List Byte) : (s.memWrite b a vs).epoch = s.epoch := by cases b <;> rfl
@[simp] theorem State.memWrite_lowercase (s : State) (b : Buffer) (a : Nat) (vs : List Byte) : (s.memWrite b a vs).lowercase = s.lowercase := by cases b <;> rfl

end Sys2Proof.Machine
end

