-- ==== Sys2Proof/Laws/Memory.lean ====
section
/-! SUPPORT. The laws of one buffer: read after write, and that a write keeps the canonical form (log 5). -/

namespace Sys2Proof.Machine

theorem Memory.lookup_store (m : Memory) (x y : Nat) (v : Byte) :
    (m.store x v).lookup y = if y = x then some v else m.lookup y := by
  induction m with
  | nil => simp [Memory.store, Memory.lookup]
  | cons c m ih =>
    obtain ⟨a, b⟩ := c
    unfold Memory.store
    split
    · simp [Memory.lookup]
    · split
      · subst x; simp only [Memory.lookup]; split <;> rfl
      · simp only [Memory.lookup, ih]
        by_cases h : y = a <;> by_cases h' : y = x <;> simp_all

@[simp] theorem Memory.lookup_store_same (m : Memory) (x : Nat) (v : Byte) : (m.store x v).lookup x = some v := by
  simp [Memory.lookup_store]

theorem Memory.lookup_store_other (m : Memory) {x y : Nat} (v : Byte) (h : y ≠ x) :
    (m.store x v).lookup y = m.lookup y := by
  simp [Memory.lookup_store, h]

/-- What a multi-byte write leaves at an address: the byte written there, or what was there before. -/
theorem Memory.lookup_storeSeq (m : Memory) (x y : Nat) (vs : List Byte) :
    (m.storeSeq x vs).lookup y = if x ≤ y ∧ y < x + vs.length then vs[y - x]? else m.lookup y := by
  induction vs generalizing m x with
  | nil => simp [Memory.storeSeq]
  | cons v vs ih =>
    simp only [Memory.storeSeq, ih, Memory.lookup_store, List.length_cons]
    by_cases h : y = x
    · subst y; simp
    · by_cases h1 : x + 1 ≤ y ∧ y < x + 1 + vs.length
      · have h2 : x ≤ y ∧ y < x + (vs.length + 1) := by omega
        obtain ⟨k, rfl⟩ : ∃ k, y = x + 1 + k := ⟨y - (x + 1), by omega⟩
        have e : x + 1 + k - x = k + 1 := by omega
        simp only [h1, h2, and_self, if_true, e, List.getElem?_cons_succ, Nat.add_sub_cancel_left]
      · have h2 : ¬(x ≤ y ∧ y < x + (vs.length + 1)) := by omega
        simp only [h1, h2, if_false, h]

theorem Memory.store_wfFrom {cap : Nat} {m : Memory} {lo x : Nat} (v : Byte) (h : m.wfFrom cap lo = true)
    (hlo : lo ≤ x) (hx : x < cap) : (m.store x v).wfFrom cap lo = true := by
  induction m generalizing lo with
  | nil => simp [Memory.store, Memory.wfFrom, hlo, hx]
  | cons c m ih =>
    obtain ⟨a, b⟩ := c
    simp only [Memory.wfFrom, Bool.and_eq_true, decide_eq_true_eq] at h
    unfold Memory.store
    split
    · simp only [Memory.wfFrom, Bool.and_eq_true, decide_eq_true_eq]; exact ⟨⟨hlo, hx⟩, ⟨by omega, h.1.2⟩, h.2⟩
    · split
      · subst x; simp only [Memory.wfFrom, Bool.and_eq_true, decide_eq_true_eq]; exact ⟨⟨hlo, hx⟩, h.2⟩
      · simp only [Memory.wfFrom, Bool.and_eq_true, decide_eq_true_eq]; exact ⟨h.1, ih h.2 (by omega)⟩

/-- A write in range keeps the canonical form. -/
theorem Memory.store_wf {cap : Nat} {m : Memory} {x : Nat} (v : Byte) (h : m.wf cap = true) (hx : x < cap) :
    (m.store x v).wf cap = true :=
  Memory.store_wfFrom v h (Nat.zero_le x) hx

/-- A multi-byte write in range keeps the canonical form. -/
theorem Memory.storeSeq_wf {cap : Nat} {m : Memory} {x : Nat} {vs : List Byte} (h : m.wf cap = true)
    (hx : x + vs.length ≤ cap) : (m.storeSeq x vs).wf cap = true := by
  induction vs generalizing m x with
  | nil => simpa [Memory.storeSeq] using h
  | cons v vs ih =>
    simp only [List.length_cons] at hx
    exact ih (Memory.store_wf v h (by omega)) (by omega)

/-- The buffers of the reset state have the canonical form. -/
theorem reset_buffers_wf : State.reset.rxbuf.wf Config.rxCap = true ∧ State.reset.scr.wf Config.scrCap = true ∧
    State.reset.txbuf.wf Config.txCap = true := ⟨rfl, rfl, rfl⟩

end Sys2Proof.Machine
end

