-- ==== Sys2Proof/Laws/Ops.lean ====
section
/-! SUPPORT. One lemma for each shared operation over buffers, text and checksums that says what it gives. -/

namespace Sys2Proof.Machine

/-! ## Reading buffers -/

/-- A read depends on the buffer's contents and on the epoch only. -/
theorem State.peek_congr {s t : State} {b : Buffer} (h : s.buffer b = t.buffer b) (he : s.epoch = t.epoch) (a : Nat) :
    s.peek b a = t.peek b a := by
  simp only [State.peek, h, he]

@[simp] theorem State.memRead_length (s : State) (b : Buffer) (a n : Nat) : (s.memRead b a n).length = n := by
  induction n generalizing a with
  | zero => rfl
  | succ n ih => simp [State.memRead, ih]

theorem State.memRead_getElem? (s : State) (b : Buffer) (a n i : Nat) :
    (s.memRead b a n)[i]? = if i < n then some (s.peek b (a + i)) else none := by
  induction n generalizing a i with
  | zero => simp [State.memRead]
  | succ n ih =>
    cases i with
    | zero => simp [State.memRead]
    | succ i => simp [State.memRead, ih, Nat.add_assoc, Nat.add_comm 1 i]

theorem State.memRead_getElem (s : State) (b : Buffer) (a n i : Nat) (h : i < (s.memRead b a n).length) :
    (s.memRead b a n)[i] = s.peek b (a + i) := by
  have h' := s.memRead_getElem? b a n i
  rw [List.getElem?_eq_getElem h] at h'
  simp only [State.memRead_length] at h
  simpa [h] using h'

theorem State.memRead_congr {s t : State} {b : Buffer} {a n : Nat} (h : ∀ i, i < n → s.peek b (a + i) = t.peek b (a + i)) :
    s.memRead b a n = t.memRead b a n := by
  induction n generalizing a with
  | zero => rfl
  | succ n ih =>
    simp only [State.memRead]
    rw [show s.peek b a = t.peek b a from h 0 (by omega),
      ih (a := a + 1) (fun i hi => by have := h (i + 1) (by omega); rwa [show a + 1 + i = a + (i + 1) by omega])]

theorem State.memRead_append (s : State) (b : Buffer) (a m n : Nat) :
    s.memRead b a (m + n) = s.memRead b a m ++ s.memRead b (a + m) n := by
  induction m generalizing a with
  | zero => simp [State.memRead]
  | succ m ih =>
    rw [show m + 1 + n = (m + n) + 1 by omega]
    simp only [State.memRead, ih, List.cons_append, show a + 1 + m = a + (m + 1) by omega]

theorem State.memRead_take (s : State) (b : Buffer) (a n k : Nat) :
    (s.memRead b a n).take k = s.memRead b a (min k n) := by
  apply List.ext_getElem?
  intro i
  simp only [List.getElem?_take, State.memRead_getElem?]
  split <;> split <;> first | rfl | omega | (split <;> first | rfl | omega)

theorem State.memRead_drop (s : State) (b : Buffer) (a n k : Nat) :
    (s.memRead b a n).drop k = s.memRead b (a + k) (n - k) := by
  apply List.ext_getElem?
  intro i
  simp only [List.getElem?_drop, State.memRead_getElem?, Nat.add_assoc]
  split <;> split <;> first | rfl | omega

/-! ## Writing buffers -/

/-- What a location of any buffer holds after a write to one. -/
theorem State.peek_memWrite (s : State) (b b' : Buffer) (a y : Nat) (vs : List Byte) :
    (s.memWrite b a vs).peek b' y =
      if b' = b ∧ a ≤ y ∧ y < a + vs.length then vs.getD (y - a) 0 else s.peek b' y := by
  by_cases hb : b' = b
  · subst b'
    by_cases h : a ≤ y ∧ y < a + vs.length
    · have hlt : y - a < vs.length := by omega
      cases b <;>
        simp [State.peek, State.buffer, State.memWrite, Memory.lookup_storeSeq, h, hlt, List.getD]
    · cases b <;> simp [State.peek, State.buffer, State.memWrite, Memory.lookup_storeSeq, h]
  · cases b <;> cases b' <;> simp_all [State.peek, State.buffer, State.memWrite]

theorem State.peek_memWrite_outside (s : State) (b b' : Buffer) (a y : Nat) (vs : List Byte)
    (h : ¬(b' = b ∧ a ≤ y ∧ y < a + vs.length)) : (s.memWrite b a vs).peek b' y = s.peek b' y := by
  rw [State.peek_memWrite, if_neg h]

/-- Reading back what was written. -/
theorem State.memRead_memWrite_same (s : State) (b : Buffer) (a : Nat) (vs : List Byte) :
    (s.memWrite b a vs).memRead b a vs.length = vs := by
  apply List.ext_getElem?
  intro i
  rw [State.memRead_getElem?]
  split
  · next h => simp [State.peek_memWrite, h, List.getD]
  · next h => exact (List.getElem?_eq_none (by omega)).symm

/-! ## Text -/

theorem decText_length (lc : LowercaseHex) (t : List Byte) : (decText lc t).length = t.length / 2 := by
  induction t using decText.induct with
  | case1 h l t ih => simp only [decText, List.length_cons, ih]; omega
  | case2 => simp [decText]
  | case3 => simp [decText]

theorem decText_getElem? (lc : LowercaseHex) (t : List Byte) (i : Nat) :
    (decText lc t)[i]? =
      if 2 * i + 1 < t.length then some (hexbyte lc (t.getD (2 * i) 0) (t.getD (2 * i + 1) 0)) else none := by
  induction t using decText.induct generalizing i with
  | case1 h l t ih =>
    cases i with
    | zero => simp [decText]
    | succ i =>
      simp only [decText, List.getElem?_cons_succ, ih, List.length_cons,
        show 2 * (i + 1) = 2 * i + 1 + 1 by omega, List.getD_cons_succ]
      by_cases h : 2 * i + 1 < t.length
      · rw [if_pos h, if_pos (by omega)]
      · rw [if_neg h, if_neg (by omega)]
  | case2 => simp [decText]
  | case3 => simp [decText]

theorem decText_append (lc : LowercaseHex) (t u : List Byte) (h : t.length % 2 = 0) :
    decText lc (t ++ u) = decText lc t ++ decText lc u := by
  induction t using decText.induct with
  | case1 a b t ih =>
    simp only [List.length_cons] at h
    simp only [decText, List.cons_append, ih (by omega)]
  | case2 => simp at h
  | case3 => rfl

@[simp] theorem encBytes_length (s : List Byte) : (encBytes s).length = 2 * s.length := by
  induction s with
  | nil => rfl
  | cons b s ih => simp only [encBytes, List.length_cons, ih]; omega

theorem encBytes_append (s t : List Byte) : encBytes (s ++ t) = encBytes s ++ encBytes t := by
  induction s with
  | nil => rfl
  | cons b s ih => simp [encBytes, ih]

@[simp] theorem encBe16_length (v : Word) : (encBe16 v).length = 4 := rfl

/-- The decoded text of a running or started `PARSE`, byte by byte (R168). -/
theorem State.decodeText_peek (s : State) (i : Nat) (h : i < s.nbytes) :
    s.decodeText.peek .scr i = hexbyte s.lowercase (s.peek .rxbuf (2 * i)) (s.peek .rxbuf (2 * i + 1)) := by
  have hn : 2 * i + 1 < s.len.toNat := by simp only [State.nbytes, State.count] at h; omega
  have e := s.peek_memWrite .scr .scr 0 i (decText s.lowercase (s.memRead .rxbuf 0 s.len.toNat))
  simp only [decText_length, State.memRead_length, true_and, Nat.zero_le, Nat.zero_add, Nat.sub_zero] at e
  rw [if_pos (by omega)] at e
  have hp : s.decodeText.peek .scr i =
      (s.memWrite .scr 0 (decText s.lowercase (s.memRead .rxbuf 0 s.len.toNat))).peek .scr i := rfl
  rw [hp, e, List.getD, decText_getElem?, State.memRead_length, if_pos hn]
  simp only [List.getD, State.memRead_getElem?, Nat.zero_add, Option.getD_some]
  rw [if_pos (by omega), if_pos hn]
  rfl

/-- Bytes of `SCR` at and above `LEN >> 1` keep their content (R42). -/
theorem State.decodeText_peek_above (s : State) (i : Nat) (h : s.nbytes ≤ i) :
    s.decodeText.peek .scr i = s.peek .scr i := by
  have hp : s.decodeText.peek .scr i =
      (s.memWrite .scr 0 (decText s.lowercase (s.memRead .rxbuf 0 s.len.toNat))).peek .scr i := rfl
  rw [hp]
  apply State.peek_memWrite_outside
  simp only [decText_length, State.memRead_length]
  simp only [State.nbytes, State.count] at h
  omega

/-! ## Checksums -/

theorem crcFold_append (r : Word) (s t : List Byte) : crcFold r (s ++ t) = crcFold (crcFold r s) t := by
  induction s generalizing r with
  | nil => rfl
  | cons b s ih => simp [crcFold, ih]

theorem be16_hi_lo (w : Word) : be16 (hiByte w) (loByte w) = w := by
  apply BitVec.eq_of_getLsbD_eq
  intro i hi
  simp only [be16, hiByte, loByte, BitVec.getLsbD_or, BitVec.getLsbD_shiftLeft, BitVec.getLsbD_setWidth,
    BitVec.getLsbD_extractLsb']
  by_cases h : i < 8
  · simp [h]; omega
  · have h1 : i - 8 < 16 := by omega
    have h2 : i - 8 < 8 := by omega
    simp [h, hi, h1, h2, show 8 + (i - 8) = i by omega]

/-! ## The register space -/

theorem knownWord_known (v : Byte) : (knownWord (some v)).getLsbD 8 = true ∧ (knownWord (some v)).setWidth 8 = v := by
  revert v; decide

/-! ## Inversion of the outcomes -/

/-- A successful refusal is the only way an operation writes `STATUS` (R232): what `exec` of an operation can answer. -/
theorem execHexdec_cases (s : State) :
    (s.textFits = true ∧ execHexdec s = .next s.decodeText.emitDone) ∨
    (s.textFits = false ∧ execHexdec s = .next (s.refuse .lenRange)) := by
  unfold execHexdec; cases s.textFits <;> simp

theorem execHexenc_cases (s : State) :
    (s.bytesFit = true ∧ execHexenc s =
      .next ({ s.memWrite .txbuf 0 (encBytes s.bytesOperand) with outlen := s.len <<< 1 } : State).emitDone) ∨
    (s.bytesFit = false ∧ execHexenc s = .next (s.refuse .lenRange)) := by
  unfold execHexenc; cases s.bytesFit <;> simp

theorem execCrc16_cases (s : State) :
    (s.textFits = true ∧
      execCrc16 s = .next ({ s with crc := crcText s.lowercase s.textOperand } : State).emitDone) ∨
    (s.textFits = false ∧ execCrc16 s = .next (s.refuse .lenRange)) := by
  unfold execCrc16; cases s.textFits <;> simp

theorem execParse_cases (s : State) :
    (s.textFits = true ∧ execParse s = .next s.clearParse.decodeText.enterLoop) ∨
    (s.textFits = false ∧ execParse s = .next (s.refuse .lenRange)) := by
  unfold execParse; cases s.textFits <;> simp

theorem execBuildset_cases (s : State) :
    (∃ f, s.setting = some f ∧ execBuildset s =
      .next ({ s.memWrite .txbuf 0 (encBytes (setBody f (clampByte f s.signedVal)) ++
          encBe16 (crcBytes (setBody f (clampByte f s.signedVal)))) with
        crc := crcBytes (setBody f (clampByte f s.signedVal)), outlen := 24 } : State).emitDone) ∨
    (s.setting = none ∧ execBuildset s = .next (s.refuse .selRange)) := by
  unfold execBuildset
  cases s.setting with
  | none => exact .inr ⟨rfl, rfl⟩
  | some f => exact .inl ⟨f, rfl, rfl⟩

end Sys2Proof.Machine
end

