-- ==== Sys2Proof/Laws/Decode.lean ====
section
/-! SUPPORT. What the decoder can answer, said once: the field codes, the classification of a body, the four checks. -/

namespace Sys2Proof

open Sys2Proof.Machine

@[simp] theorem settingOfCode_fieldCode (f : Setting) : settingOfCode (fieldCode f) = some f := by
  cases f <;> rfl

theorem settingOfCode_eq_some {c : Byte} {f : Setting} (h : settingOfCode c = some f) : c = fieldCode f := by
  unfold settingOfCode at h
  split at h <;> first | (cases h; rename_i hc; exact BitVec.eq_of_toNat_eq (by rw [hc]; rfl)) | cases h

theorem settingOfCode_isSome (c : Byte) : (settingOfCode c).isSome = fieldCodeNamed c := by
  unfold settingOfCode fieldCodeNamed
  split <;> first | (rename_i h; rw [h]; rfl) | skip
  rename_i h0 h1 h2 h3 h4 h5
  have h : ¬c.toNat ≤ 5 := by
    intro h
    have : c.toNat = 0 ∨ c.toNat = 1 ∨ c.toNat = 2 ∨ c.toNat = 3 ∨ c.toNat = 4 ∨ c.toNat = 5 := by omega
    rcases this with h | h | h | h | h | h <;> contradiction
  rw [decide_eq_false h]; rfl

theorem bodyIsStatus_eq_true {body : List Byte} (h : bodyIsStatus body = true) :
    ∃ devId devType p c b t hu s surplus,
      body = devId :: devType :: Config.kindStatus :: p :: c :: b :: t :: hu :: s :: surplus := by
  match body, h with
  | devId :: devType :: k :: p :: c :: b :: t :: hu :: s :: surplus, h =>
    simp only [bodyIsStatus, Bool.and_eq_true, beq_iff_eq] at h
    exact ⟨devId, devType, p, c, b, t, hu, s, surplus, by rw [h.1]⟩
  | [], h | [_], h | [_, _], h | [_, _, _], h | [_, _, _, _], h | [_, _, _, _, _], h | [_, _, _, _, _, _], h
  | [_, _, _, _, _, _, _], h | [_, _, _, _, _, _, _, _], h => simp [bodyIsStatus] at h

theorem bodyIsSetack_eq_true {body : List Byte} (h : bodyIsSetack body = true) :
    ∃ devId devType r f argc v surplus,
      body = devId :: devType :: Config.kindSetack :: r :: fieldCode f :: argc :: v :: surplus := by
  match body, h with
  | devId :: devType :: k :: r :: f :: argc :: v :: surplus, h =>
    simp only [bodyIsSetack, Bool.and_eq_true, beq_iff_eq] at h
    rw [← settingOfCode_isSome, Option.isSome_iff_exists] at h
    obtain ⟨hk, g, hg⟩ := h
    exact ⟨devId, devType, r, g, argc, v, surplus, by rw [hk, settingOfCode_eq_some hg]⟩
  | [], h | [_], h | [_, _], h | [_, _, _], h | [_, _, _, _], h | [_, _, _, _, _], h | [_, _, _, _, _, _], h =>
    simp [bodyIsSetack] at h

theorem bodyIsSetcmd_eq_true {body : List Byte} (h : bodyIsSetcmd body = true) :
    ∃ devId devType payload, body = devId :: devType :: Config.kindSetcmd :: payload := by
  match body, h with
  | devId :: devType :: k :: payload, h =>
    simp only [bodyIsSetcmd, beq_iff_eq] at h
    exact ⟨devId, devType, payload, by rw [h]⟩
  | [], h | [_], h | [_, _], h => simp [bodyIsSetcmd] at h

theorem classify_of_other {body : List Byte} (h : bodyIsOther body = true) : classify body = .other body := by
  simp only [bodyIsOther, Bool.and_eq_true, Bool.not_eq_true'] at h
  obtain ⟨⟨h1, h2⟩, h3⟩ := h
  unfold classify
  split
  · split
    · next hk =>
      subst hk
      split
      · simp [bodyIsStatus] at h1
      · rfl
    · split
      · next hk =>
        subst hk
        split
        · next r f argc v surplus =>
          split
          · next g hg =>
            simp [bodyIsSetack, ← settingOfCode_isSome, hg] at h2
          · rfl
        · rfl
      · split
        · next hk => subst hk; simp [bodyIsSetcmd] at h3
        · rfl
  · rfl

@[simp] theorem classify_status (devId devType p c b t h s : Byte) (surplus : List Byte) :
    classify (devId :: devType :: Config.kindStatus :: p :: c :: b :: t :: h :: s :: surplus) =
      .status devId devType p c b t h s surplus := rfl

@[simp] theorem classify_setack (devId devType r argc v : Byte) (f : Setting) (surplus : List Byte) :
    classify (devId :: devType :: Config.kindSetack :: r :: fieldCode f :: argc :: v :: surplus) =
      .setack devId devType r f argc v surplus := by
  cases f <;> rfl

@[simp] theorem classify_setcmd (devId devType : Byte) (payload : List Byte) :
    classify (devId :: devType :: Config.kindSetcmd :: payload) = .setcmd devId devType payload := rfl

/-- Everything the classification of a body can answer (R176, R178, R181, R182). -/
theorem classify_cases (body : List Byte) :
    (∃ devId devType p c b t h s surplus,
      body = devId :: devType :: Config.kindStatus :: p :: c :: b :: t :: h :: s :: surplus ∧
      classify body = .status devId devType p c b t h s surplus) ∨
    (∃ devId devType r f argc v surplus,
      body = devId :: devType :: Config.kindSetack :: r :: fieldCode f :: argc :: v :: surplus ∧
      classify body = .setack devId devType r f argc v surplus) ∨
    (∃ devId devType payload, body = devId :: devType :: Config.kindSetcmd :: payload ∧
      classify body = .setcmd devId devType payload) ∨
    (bodyIsOther body = true ∧ classify body = .other body) := by
  by_cases h1 : bodyIsStatus body = true
  · obtain ⟨_, _, _, _, _, _, _, _, _, rfl⟩ := bodyIsStatus_eq_true h1
    exact .inl ⟨_, _, _, _, _, _, _, _, _, rfl, rfl⟩
  by_cases h2 : bodyIsSetack body = true
  · obtain ⟨_, _, _, _, _, _, _, rfl⟩ := bodyIsSetack_eq_true h2
    exact .inr (.inl ⟨_, _, _, _, _, _, _, rfl, classify_setack ..⟩)
  by_cases h3 : bodyIsSetcmd body = true
  · obtain ⟨_, _, _, rfl⟩ := bodyIsSetcmd_eq_true h3
    exact .inr (.inr (.inl ⟨_, _, _, rfl, rfl⟩))
  have h4 : bodyIsOther body = true := by simp_all [bodyIsOther]
  exact .inr (.inr (.inr ⟨h4, classify_of_other h4⟩))

/-- A classified body is the body of its instruction, and the length byte counts it and the checksum. -/
theorem classify_body (body : List Byte) :
    bodyTail (classify body) = body ∧ (classify body).lengthByte = 2 + body.length := by
  rcases classify_cases body with ⟨_, _, _, _, _, _, _, _, _, rfl, h⟩ | ⟨_, _, _, _, _, _, _, rfl, h⟩ |
    ⟨_, _, _, rfl, h⟩ | ⟨-, h⟩ <;> rw [h] <;> refine ⟨rfl, ?_⟩ <;>
    simp only [Instr.lengthByte, List.length_cons] <;> omega

/-- A classified body is a frame that its row may select (R106). -/
theorem classify_row (body : List Byte) : (classify body).isFrame = true ∧ (classify body).rowOk = true := by
  rcases classify_cases body with ⟨_, _, _, _, _, _, _, _, _, rfl, h⟩ | ⟨_, _, _, _, _, _, _, rfl, h⟩ |
    ⟨_, _, _, rfl, h⟩ | ⟨ho, h⟩ <;> rw [h] <;> first | exact ⟨rfl, rfl⟩ | exact ⟨rfl, ho⟩

/-- The classification of the body of a frame that its row may select is that frame. -/
theorem classify_bodyTail {i : Instr} (hf : i.isFrame = true) (hr : i.rowOk = true) : classify (bodyTail i) = i := by
  cases i <;> first | rfl | exact classify_setack .. | exact classify_of_other hr | simp [Instr.isFrame] at hf

/-- Everything the four checks and the classification can answer on a candidate (R169 to R173, R176). -/
theorem decodeFrameWith_eq_ok {n : Nat} {crcOf : Nat → Word} {bytes : List Byte} {i : Instr} {c : Word}
    (h : decodeFrameWith n crcOf bytes = .ok (i, c)) :
    ∃ (l : Byte) (rest : List Byte), bytes = Config.magic0 :: Config.magic1 :: l :: rest ∧ 6 ≤ n ∧
      l.toNat ≤ rest.length ∧ c = crcOf (l.toNat + 1) ∧
      c = be16 (bytes.getD (l.toNat + 1) 0) (bytes.getD (l.toNat + 2) 0) ∧
      i = classify ((bytes.take (l.toNat + 1)).drop 3) := by
  unfold decodeFrameWith at h
  split at h
  · next m0 m1 l rest =>
    split at h
    · cases h
    split at h
    · cases h
    next hm =>
    split at h
    · cases h
    dsimp only at h
    split at h
    · cases h
    next hc =>
    obtain ⟨rfl, rfl⟩ := Decidable.not_not.mp hm
    cases h
    exact ⟨l, rest, rfl, by omega, by omega, rfl, Decidable.not_not.mp hc, rfl⟩
  · cases h

/-- The checks accept a candidate that passes them. -/
theorem decodeFrameWith_ok {n : Nat} {crcOf : Nat → Word} {l : Byte} {rest bytes : List Byte}
    (hb : bytes = Config.magic0 :: Config.magic1 :: l :: rest) (hn : 6 ≤ n) (hl : l.toNat ≤ rest.length)
    (hc : crcOf (l.toNat + 1) = be16 (bytes.getD (l.toNat + 1) 0) (bytes.getD (l.toNat + 2) 0)) :
    decodeFrameWith n crcOf bytes =
      .ok (classify ((bytes.take (l.toNat + 1)).drop 3), crcOf (l.toNat + 1)) := by
  subst hb
  unfold decodeFrameWith
  simp only [if_neg (show ¬n < 6 by omega), and_self, not_true_eq_false, if_false,
    if_neg (show ¬rest.length < l.toNat by omega), ne_eq, hc]

end Sys2Proof
end

