-- ==== Sys2Proof/Laws/PerInstr.lean ====
section
/-! SUPPORT. A family of facts stated once per constructor: the size of an instruction's encoding (R90, R95, R96). -/

namespace Sys2Proof.Laws

/-- The size of an encoding: a frame has `T` = 3 + `L` bytes (R95), an operation is one command word (R90). -/
def EncodeSize.Statement (i : Instr) : Prop :=
  match encode i with
  | .command w => i.isFrame = false ∧ w.toNat < 8
  | .frame bytes => i.isFrame = true ∧ bytes.length = 3 + i.lengthByte

theorem EncodeSize.nop : EncodeSize.Statement .nop := ⟨rfl, by decide⟩
theorem EncodeSize.hexdec : EncodeSize.Statement .hexdec := ⟨rfl, by decide⟩
theorem EncodeSize.hexenc : EncodeSize.Statement .hexenc := ⟨rfl, by decide⟩
theorem EncodeSize.hexenc16 : EncodeSize.Statement .hexenc16 := ⟨rfl, by decide⟩
theorem EncodeSize.crc16 : EncodeSize.Statement .crc16 := ⟨rfl, by decide⟩
theorem EncodeSize.parse : EncodeSize.Statement .parse := ⟨rfl, by decide⟩
theorem EncodeSize.buildset : EncodeSize.Statement .buildset := ⟨rfl, by decide⟩
theorem EncodeSize.dsclr : EncodeSize.Statement .dsclr := ⟨rfl, by decide⟩

theorem EncodeSize.status (devId devType power channel bright cct hue sat : Byte) (surplus : List Byte) :
    EncodeSize.Statement (.status devId devType power channel bright cct hue sat surplus) :=
  ⟨rfl, by simp [withChecksum, frameBody, bodyTail, Instr.lengthByte]; omega⟩

theorem EncodeSize.setack (devId devType reserved : Byte) (field : Setting) (argc value : Byte) (surplus : List Byte) :
    EncodeSize.Statement (.setack devId devType reserved field argc value surplus) :=
  ⟨rfl, by simp [withChecksum, frameBody, bodyTail, Instr.lengthByte]; omega⟩

theorem EncodeSize.setcmd (devId devType : Byte) (payload : List Byte) :
    EncodeSize.Statement (.setcmd devId devType payload) :=
  ⟨rfl, by simp [withChecksum, frameBody, bodyTail, Instr.lengthByte]; omega⟩

theorem EncodeSize.other (body : List Byte) : EncodeSize.Statement (.other body) :=
  ⟨rfl, by simp [withChecksum, frameBody, bodyTail, Instr.lengthByte]; omega⟩

end Sys2Proof.Laws
end

