-- ==== Sys2Proof/Laws/Step.lean ====
section
/-! SUPPORT. What one step can do, said once: a frame's meaning as one expression, one iteration of the loop, one step of
the block. -/

namespace Sys2Proof.Machine

/-- The meaning of any frame, by its update of DeviceState (R174 to R183). -/
theorem exec_frame {i : Instr} (hf : i.isFrame = true) (s : State) :
    exec i s = .next (match frameUpdate i s.ds with
      | some d => s.acceptUpdate d i.lengthByte
      | none => s.acceptIgnored i.lengthByte) := by
  cases i <;> first | rfl | cases hf

/-- A command word selects no frame. -/
theorem decodeCommand_isFrame {w : Word} {i : Instr} (h : decodeCommand w = .ok i) : i.isFrame = false := by
  unfold decodeCommand at h
  split at h
  · cases h
  · split at h <;> cases h <;> rfl

/-- A command word that selects no operation has reserved bits set (R92). -/
theorem decodeCommand_error {w : Word} {e : DecodeError} (h : decodeCommand w = .error e) : e = .reservedBits := by
  unfold decodeCommand at h
  split at h
  · cases h; rfl
  · split at h <;> cases h

/-! ## What an instruction leaves alone, and how it ends -/

/-- A buffer read does not depend on the outside. -/
theorem State.memRead_outside (s : State) (x : Option HostTxn) (ins : List Input) (b : Buffer) (a n : Nat) :
    ({ s with held := x, inputs := ins } : State).memRead b a n = s.memRead b a n :=
  State.memRead_congr fun _ _ => by cases b <;> rfl

/-- The checks do not depend on the outside. -/
theorem State.examine_outside (s : State) (x : Option HostTxn) (ins : List Input) :
    ({ s with held := x, inputs := ins } : State).examine = s.examine := by
  have ht : ({ s with held := x, inputs := ins } : State).textCrc = s.textCrc :=
    funext fun n => congrArg (crcText s.lowercase) (s.memRead_outside x ins .rxbuf _ _)
  have hb : ({ s with held := x, inputs := ins } : State).remainingBytes = s.remainingBytes :=
    s.memRead_outside x ins .scr _ _
  simp only [State.examine, ht, hb]
  rfl

/-- Neither a held transaction nor what comes in later has an influence on an instruction, nor does it change them. -/
theorem exec_outside {i : Instr} {s t : State} (x : Option HostTxn) (ins : List Input) (h : exec i s = .next t) :
    exec i { s with held := x, inputs := ins } = .next { t with held := x, inputs := ins } := by
  have hm := s.memRead_outside x ins
  have hf : ({ s with held := x, inputs := ins } : State).textFits = s.textFits := rfl
  have hb : ({ s with held := x, inputs := ins } : State).bytesFit = s.bytesFit := rfl
  have hc : ({ s with held := x, inputs := ins } : State).clearParse =
      { s.clearParse with held := x, inputs := ins } := rfl
  have hp := s.clearParse.memRead_outside x ins
  have hs : ({ s with held := x, inputs := ins } : State).setting = s.setting := rfl
  cases i with
  | hexdec =>
    simp only [exec, execHexdec, hf] at h ⊢
    split at h <;> cases h <;> simp only [*, if_true, State.decodeText] <;> rfl
  | hexenc =>
    simp only [exec, execHexenc, hb] at h ⊢
    split at h <;> cases h <;> simp only [*, if_true, State.bytesOperand] <;> rfl
  | crc16 =>
    simp only [exec, execCrc16, hf] at h ⊢
    split at h <;> cases h <;> simp only [*, if_true, State.textOperand] <;> rfl
  | parse =>
    simp only [exec, execParse, hf] at h ⊢
    rw [hc]
    split at h <;> cases h
    · simp only [*, if_true, State.decodeText]; rfl
    · simp only [*]; rfl
  | buildset =>
    have hv : ({ s with held := x, inputs := ins } : State).signedVal = s.signedVal := rfl
    simp only [exec, execBuildset, hs, hv] at h ⊢
    cases hx : s.setting with
    | none => rw [hx] at h; cases h; rfl
    | some f =>
      rw [hx] at h
      dsimp only at h ⊢
      generalize encBytes (setBody f (clampByte f s.signedVal)) ++ _ = text at h ⊢
      generalize crcBytes _ = c at h ⊢
      cases h
      rfl
  | _ => cases h; rfl

/-- An operation ends with its one `Done`, or it is an accepted `PARSE` and enters its loop (R45, R244). -/
theorem exec_operation {i : Instr} {s t : State} (hf : i.isFrame = false) (h : exec i s = .next t) :
    (t.phase = .idle ∧ t.ptrace = s.ptrace ++ [.done]) ∨
    (i = .parse ∧ t.phase = .running .frames ∧ t.ptrace = s.ptrace) := by
  cases i with
  | hexdec => rcases execHexdec_cases s with ⟨_, e⟩ | ⟨_, e⟩ <;> cases e.symm.trans h <;> simp
  | hexenc => rcases execHexenc_cases s with ⟨_, e⟩ | ⟨_, e⟩ <;> cases e.symm.trans h <;> simp
  | crc16 => rcases execCrc16_cases s with ⟨_, e⟩ | ⟨_, e⟩ <;> cases e.symm.trans h <;> simp
  | parse => rcases execParse_cases s with ⟨_, e⟩ | ⟨_, e⟩ <;> cases e.symm.trans h <;> simp
  | buildset => rcases execBuildset_cases s with ⟨_, _, e⟩ | ⟨_, e⟩ <;> cases e.symm.trans h <;> simp
  | nop => cases h; simp
  | hexenc16 => cases h; simp
  | dsclr => cases h; simp
  | _ => cases hf

/-- What the checks accept is a frame that its row may select. -/
theorem examine_isFrame {s : State} {i : Instr} {c : Word} (h : s.examine = .ok (i, c)) :
    i.isFrame = true ∧ i.rowOk = true := by
  obtain ⟨_, _, _, _, _, _, _, rfl⟩ := decodeFrameWith_eq_ok h
  exact classify_row _

/-- A rejected candidate: the only outcomes of the checks besides a frame. -/
theorem runFrame_cases {s t : State} (h : runFrame s = .next t) :
    (∃ i c, s.examine = .ok (i, c) ∧ i.isFrame = true ∧ exec i { s with crc := c } = .next t) ∨
    (∃ r, s.examine = .error r ∧ t = s.stopParse r) := by
  unfold runFrame at h
  split at h
  · next i c he => exact .inl ⟨i, c, he, (examine_isFrame he).1, h⟩
  · next r he => cases h; exact .inr ⟨r, he, rfl⟩

/-- The state the sequencer goes on from differs from the state before the step in the inputs only. -/
theorem Advances.eq {s u : State} {job : Job} (h : Advances s job u) : u = { s with inputs := u.inputs } := by
  obtain ⟨-, ⟨-, rfl⟩ | ⟨_, -, rfl⟩ | ⟨_, _, _, -, -, rfl⟩⟩ := h <;> rfl

/-- The state on which a transaction takes effect differs from the state before the step in the outside only. -/
theorem Acts.eq {s u : State} {t : HostTxn} (h : Acts s t u) :
    u = { s with held := u.held, inputs := u.inputs } ∧ u.phase = .idle ∧ u.held = none := by
  obtain ⟨hp, ⟨hh, _, -, rfl⟩ | ⟨-, -, rfl⟩⟩ := h
  · exact ⟨rfl, hp, hh⟩
  · exact ⟨rfl, hp, rfl⟩

/-- A step in which the sequencer goes on is what it goes on with, from the state it goes on from. -/
theorem step_advances {s u : State} {job : Job} (h : Advances s job u) : step s = advanceJob job u := by
  obtain ⟨hp, ⟨hi, rfl⟩ | ⟨rest, hi, rfl⟩ | ⟨t, rest, x, hi, hh, rfl⟩⟩ := h <;>
    simp only [step, stepBlock, stepRunning, *]

/-- A step in which a host transaction takes effect performs it. -/
theorem step_acts {s u : State} {t : HostTxn} (h : Acts s t u) : step s = perform t u := by
  obtain ⟨hp, ⟨hh, rest, hi, rfl⟩ | ⟨hh, hn, rfl⟩⟩ := h
  · simp only [step, stepBlock, stepFree, hp, hh, hi]
  · simp only [step, stepBlock, hp, hh, stepHeld]

/-- `rst` resets, whatever the block is doing. -/
theorem step_reset {s : State} {rest : List Input} (h : s.inputs = .rst :: rest) : step s = .next (s.resetWith rest) := by
  unfold step stepBlock
  split
  · simp only [stepRunning, h]
  · split
    · simp only [stepHeld, h]
    · simp only [stepFree, h]

/-- Everything one step of the block can be (R45, R70, R71, R252, R260). -/
theorem step_cases {s t : State} (h : step s = .next t) :
    (∃ rest, s.inputs = .rst :: rest ∧ t = s.resetWith rest) ∨
    (∃ x u, Acts s x u ∧ perform x u = .next t) ∨
    (∃ job u, Advances s job u ∧ advanceJob job u = .next t) ∨
    (∃ job x rest, s.phase = .running job ∧ s.held = none ∧ s.inputs = .txn x :: rest ∧
      t = { s with held := some x, inputs := rest }) ∨
    (s.phase = .idle ∧ s.held = none ∧
      ((∃ rest, s.inputs = .quiet :: rest ∧ t = { s with inputs := rest }) ∨ (s.inputs = [] ∧ t = s))) := by
  by_cases hr : ∃ rest, s.inputs = .rst :: rest
  · obtain ⟨rest, hr⟩ := hr
    rw [step_reset hr] at h
    cases h
    exact .inl ⟨rest, hr, rfl⟩
  have hn : ∀ rest, s.inputs ≠ .rst :: rest := fun rest he => hr ⟨rest, he⟩
  refine .inr ?_
  cases hp : s.phase with
  | running job =>
    cases hi : s.inputs with
    | nil =>
      have ha : Advances s job s := ⟨hp, .inl ⟨hi, rfl⟩⟩
      exact .inr (.inl ⟨job, _, ha, step_advances ha ▸ h⟩)
    | cons i rest =>
      cases i with
      | rst => exact absurd hi (hn rest)
      | quiet =>
        have ha : Advances s job { s with inputs := rest } := ⟨hp, .inr (.inl ⟨rest, hi, rfl⟩)⟩
        exact .inr (.inl ⟨job, _, ha, step_advances ha ▸ h⟩)
      | txn x =>
        cases hh : s.held with
        | none =>
          simp only [step, stepBlock, stepRunning, hp, hi, hh, Host.Outcome.next.injEq] at h
          exact .inr (.inr (.inl ⟨job, x, rest, rfl, rfl, rfl, h.symm⟩))
        | some y =>
          have ha : Advances s job s := ⟨hp, .inr (.inr ⟨x, rest, y, hi, hh, rfl⟩)⟩
          exact .inr (.inl ⟨job, _, ha, step_advances ha ▸ h⟩)
  | idle =>
    cases hh : s.held with
    | some x =>
      have ha : Acts s x { s with held := none } := ⟨hp, .inr ⟨hh, hn, rfl⟩⟩
      exact .inl ⟨x, _, ha, step_acts ha ▸ h⟩
    | none =>
      cases hi : s.inputs with
      | nil =>
        simp only [step, stepBlock, stepFree, hp, hh, hi, Host.Outcome.next.injEq] at h
        exact .inr (.inr (.inr ⟨rfl, rfl, .inr ⟨rfl, h.symm⟩⟩))
      | cons i rest =>
        cases i with
        | rst => exact absurd hi (hn rest)
        | quiet =>
          simp only [step, stepBlock, stepFree, hp, hh, hi, Host.Outcome.next.injEq] at h
          exact .inr (.inr (.inr ⟨rfl, rfl, .inl ⟨rest, rfl, h.symm⟩⟩))
        | txn x =>
          have ha : Acts s x { s with inputs := rest } := ⟨hp, .inl ⟨hh, rest, hi, rfl⟩⟩
          exact .inl ⟨x, _, ha, step_acts ha ▸ h⟩

/-- What the acceptance of a command can do (R215). -/
theorem acceptCommand_cases {w : Word} {s t : State} (h : acceptCommand w s = .next t) :
    (∃ i, decodeCommand w = .ok i ∧ refusalOf i s = none ∧ t = s.start w) ∨
    (∃ c, t = s.refuse c ∧ ((decodeCommand w = .error .reservedBits ∧ c = .illegalCmd) ∨
      ∃ i, decodeCommand w = .ok i ∧ refusalOf i s = some c)) := by
  unfold acceptCommand at h
  split at h
  · next i hi =>
    split at h
    · next c hc => cases h; exact .inr ⟨c, rfl, .inr ⟨i, hi, hc⟩⟩
    · next hc => cases h; exact .inl ⟨i, hi, hc, rfl⟩
  · next e he => cases h; cases decodeCommand_error he; exact .inr ⟨_, rfl, .inl ⟨he, rfl⟩⟩

/-- What the execution of an accepted command can do (R215 step 4). -/
theorem runCommand_cases {w : Word} {s t : State} (h : runCommand w s = .next t) :
    (∃ i, decodeCommand w = .ok i ∧ i.isFrame = false ∧ exec i s = .next t) ∨
    (decodeCommand w = .error .reservedBits ∧ t = s.refuse .illegalCmd) := by
  unfold runCommand at h
  split at h
  · next i hi => exact .inl ⟨i, hi, decodeCommand_isFrame hi, h⟩
  · next e he => cases h; cases decodeCommand_error he; exact .inr ⟨he, rfl⟩

/-- What a host transaction can do: present a command, clear the status, store one operand or one byte, return a value, or
nothing. -/
theorem perform_cases {x : HostTxn} {s t : State} (h : perform x s = .next t) :
    (∃ w, x = .write .reg 0 w ∧ acceptCommand w s = .next t) ∨
    (∃ v, x = .write .reg 1 v ∧ t = s.clearStatus v) ∨
    (∃ v : Word, x = .write .reg 2 v ∧ t = { s with len := v.setWidth 12 }) ∨
    (∃ v, x = .write .reg 3 v ∧ t = { s with val := v }) ∨
    (∃ v : Word, x = .write .reg 4 v ∧ t = { s with sel := v.setWidth 3 }) ∨
    (∃ b a v, x = .write (.buf b) a v ∧ b ≠ .txbuf ∧ a < b.capacity ∧ t = s.memWrite b a [v.setWidth 8]) ∨
    (∃ sp a, x = .read sp a ∧ t = s.returnValue (s.hostRead sp a)) ∨ t = s := by
  unfold perform at h
  split at h
  · unfold hostWriteReg at h
    split at h
    · exact .inl ⟨_, rfl, h⟩
    · cases h; exact .inr (.inl ⟨_, rfl, rfl⟩)
    · cases h; exact .inr (.inr (.inl ⟨_, rfl, rfl⟩))
    · cases h; exact .inr (.inr (.inr (.inl ⟨_, rfl, rfl⟩)))
    · cases h; exact .inr (.inr (.inr (.inr (.inl ⟨_, rfl, rfl⟩))))
    · cases h; simp
  · next b a v =>
    cases h
    unfold State.hostWriteBuf
    split
    · split
      · next ha => exact .inr (.inr (.inr (.inr (.inr (.inl ⟨.rxbuf, a, v, rfl, by decide, ha, rfl⟩)))))
      · simp
    · split
      · next ha => exact .inr (.inr (.inr (.inr (.inr (.inl ⟨.scr, a, v, rfl, by decide, ha, rfl⟩)))))
      · simp
    · simp
  · cases h; exact .inr (.inr (.inr (.inr (.inr (.inr (.inl ⟨_, _, rfl, rfl⟩))))))

end Sys2Proof.Machine
end

