-- ==== Sys2Proof/Machine/HostProgram.lean ====
section
/-! DEFINITION. The host-program notation (R109, R110): each line is a transaction, each pseudo-operation a sequence of
transactions. A host program is a list of these; it stands in `State.inputs`. -/

namespace Sys2Proof.Machine

/-- `WR <space>[<addr>], <value>` (R109). -/
def wr (sp : Space) (a : Nat) (v : Word) : HostTxn := .write sp a v

/-- `RD <space>[<addr>]` (R109). -/
def rd (sp : Space) (a : Nat) : HostTxn := .read sp a

/-- The bytes written at consecutive indices of a buffer from `a`. -/
def loadFrom (b : Buffer) : Nat → List Byte → List HostTxn
  | a, v :: vs => wr (.buf b) a (v.setWidth 16) :: loadFrom b (a + 1) vs
  | _, [] => []

/-- `LOAD RXBUF, "<text>"` (R110). -/
def loadRxbuf (t : List Byte) : List HostTxn := loadFrom .rxbuf 0 t ++ [wr .reg 2 (BitVec.ofNat 16 t.length)]

/-- `LOAD SCR, <b0> <b1> …` (R110). -/
def loadScr (bs : List Byte) : List HostTxn := loadFrom .scr 0 bs ++ [wr .reg 2 (BitVec.ofNat 16 bs.length)]

/-- An operation's name alone on a line: its command word to `CMD` (R91, R110). A frame has no such line. -/
def issue (i : Instr) : List HostTxn :=
  match encode i with
  | .command w => [wr .reg 0 w]
  | .frame _ => []

/-- `DUMP TXBUF` (R110), `n` the value the read of `OUTLEN` gave. -/
def dumpTxbuf (n : Nat) : List HostTxn := rd .reg 6 :: (List.range n).map (fun i => rd (.buf .txbuf) i)

/-- `setPower v` … `setSaturation v` (R110): `SEL`, `VAL` truncated to 16 bits, `BUILDSET`. -/
def setCommand (f : Setting) (v : Int) : List HostTxn :=
  [wr .reg 4 ((fieldCode f).setWidth 16), wr .reg 3 (BitVec.ofInt 16 v)] ++ issue .buildset

/-- `CLRERR` (R110). -/
def clrErr : List HostTxn := [wr .reg 1 1]

/-- A host program as the inputs of a state. -/
def State.withProgram (s : State) (p : List HostTxn) : State := { s with inputs := p.map .txn }

end Sys2Proof.Machine
end

