-- ==== Sys2Proof/Tests/Slice0.lean ====
section
/-! SUPPORT. Tests. Expected values are the spec's own: the examples of its rules and the vectors of
spec/95_test_vectors.md, named in each comment. Then, for each statement with hypotheses, a witness that meets them. -/

namespace Sys2Proof.Tests

-- One declaration after the other: each kernel evaluation otherwise waits on a thread of its own.
set_option Elab.async false

open Sys2Proof Sys2Proof.Machine

/-! ## Helpers -/

/-- The next state of an outcome. -/
def nextOf : Host.Outcome State Fault Refusal → Option State
  | .next s => some s
  | .fault _ => none
  | .refused _ => none

/-- The reset state with a text in `RXBUF` and its length in `LEN`. -/
def onText (t : List Byte) : State :=
  { State.reset.memWrite .rxbuf 0 t with len := BitVec.ofNat 12 t.length }

/-- The state an accepted `PARSE` of a text starts its loop in. -/
def started (t : List Byte) : State := (nextOf (exec .parse (onText t))).getD State.reset

/-- The state of an accepted command before its operation is executed. -/
def accepted (w : Word) : State := State.reset.start w

/-- The state after the first iteration of the loop. -/
def afterOne (t : List Byte) : State := (nextOf (step (started t))).getD State.reset

/-- The reset state with one transaction as its next input. -/
def facing (t : HostTxn) : State := { State.reset with inputs := [.txn t] }

/-- The characters `4C540B003003010532382464C33B`. -/
def stText : List Byte :=
  [0x34, 0x43, 0x35, 0x34, 0x30, 0x42, 0x30, 0x30, 0x33, 0x30, 0x30, 0x33, 0x30, 0x31, 0x30, 0x35, 0x33, 0x32,
    0x33, 0x38, 0x32, 0x34, 0x36, 0x34, 0x43, 0x33, 0x33, 0x42]

/-- The characters `4C54090030020002014B9354`. -/
def ackText : List Byte :=
  [0x34, 0x43, 0x35, 0x34, 0x30, 0x39, 0x30, 0x30, 0x33, 0x30, 0x30, 0x32, 0x30, 0x30, 0x30, 0x32, 0x30, 0x31,
    0x34, 0x42, 0x39, 0x33, 0x35, 0x34]

/-- The characters `4C5409003057000201324A8F`. -/
def cmdText : List Byte :=
  [0x34, 0x43, 0x35, 0x34, 0x30, 0x39, 0x30, 0x30, 0x33, 0x30, 0x35, 0x37, 0x30, 0x30, 0x30, 0x32, 0x30, 0x31,
    0x33, 0x32, 0x34, 0x41, 0x38, 0x46]

/-- The characters `4C5409000053000001009474`. -/
def helloText : List Byte :=
  [0x34, 0x43, 0x35, 0x34, 0x30, 0x39, 0x30, 0x30, 0x30, 0x30, 0x35, 0x33, 0x30, 0x30, 0x30, 0x30, 0x30, 0x31,
    0x30, 0x30, 0x39, 0x34, 0x37, 0x34]

/-- The characters `4C54028AF5`. -/
def minimalText : List Byte :=
  [0x34, 0x43, 0x35, 0x34, 0x30, 0x32, 0x38, 0x41, 0x46, 0x35]

/-- The characters `4C540B003003010533382464C33B`. -/
def badText : List Byte :=
  [0x34, 0x43, 0x35, 0x34, 0x30, 0x42, 0x30, 0x30, 0x33, 0x30, 0x30, 0x33, 0x30, 0x31, 0x30, 0x35, 0x33, 0x33,
    0x33, 0x38, 0x32, 0x34, 0x36, 0x34, 0x43, 0x33, 0x33, 0x42]

/-- The characters `4C54090030020006014B4F94`. -/
def ackCode6Text : List Byte :=
  [0x34, 0x43, 0x35, 0x34, 0x30, 0x39, 0x30, 0x30, 0x33, 0x30, 0x30, 0x32, 0x30, 0x30, 0x30, 0x36, 0x30, 0x31,
    0x34, 0x42, 0x34, 0x46, 0x39, 0x34]

/-- The characters `4C540A0030030105323824D15B`. -/
def shortStatusText : List Byte :=
  [0x34, 0x43, 0x35, 0x34, 0x30, 0x41, 0x30, 0x30, 0x33, 0x30, 0x30, 0x33, 0x30, 0x31, 0x30, 0x35, 0x33, 0x32,
    0x33, 0x38, 0x32, 0x34, 0x44, 0x31, 0x35, 0x42]

/-! ## Well-formedness: an ill-formed term for each check, which the check refuses -/

theorem test_wf_accepts :
    (Instr.status 0 0 0 0 0 0 0 0 (List.replicate 244 0)).wf = true ∧
    (Instr.setack 0 0 0 .sat 0 0 (List.replicate 246 0)).wf = true ∧
    (Instr.setcmd 0 0 (List.replicate 250 0)).wf = true ∧ (Instr.other (List.replicate 253 0)).wf = true ∧
    (Instr.other []).wf = true ∧ Instr.nop.wf = true := by decide +kernel
theorem test_wf_refuses_long_status : (Instr.status 0 0 0 0 0 0 0 0 (List.replicate 245 0)).wf = false :=
  by decide +kernel
theorem test_wf_refuses_long_setack : (Instr.setack 0 0 0 .sat 0 0 (List.replicate 247 0)).wf = false :=
  by decide +kernel
theorem test_wf_refuses_long_setcmd : (Instr.setcmd 0 0 (List.replicate 251 0)).wf = false :=
  by decide +kernel
theorem test_wf_refuses_long_other : (Instr.other (List.replicate 254 0)).wf = false :=
  by decide +kernel
theorem test_wf_refuses_other_that_is_status : (Instr.other [0, 0, 3, 1, 2, 3, 4, 5, 6]).wf = false := by decide
theorem test_wf_refuses_other_that_is_setack : (Instr.other [0, 0, 2, 0, 5, 1, 9]).wf = false := by decide
theorem test_wf_refuses_other_that_is_setcmd : (Instr.other [0, 0, 0x57]).wf = false := by decide

/-! ## Decoding, from words and bytes written out (R91, R108, 95 section 4) -/

theorem test_decode_commands :
    decodeCommand 0b0000000000000000 = .ok .nop ∧ decodeCommand 0b0000000000000001 = .ok .hexdec ∧
    decodeCommand 0b0000000000000010 = .ok .hexenc ∧ decodeCommand 0b0000000000000011 = .ok .hexenc16 ∧
    decodeCommand 0b0000000000000100 = .ok .crc16 ∧ decodeCommand 0b0000000000000101 = .ok .parse ∧
    decodeCommand 0b0000000000000110 = .ok .buildset ∧ decodeCommand 0b0000000000000111 = .ok .dsclr := by decide
/-- R92, vectors V-SYS-2 and V-SYS-3. -/
theorem test_decode_reserved :
    decodeCommand 0x0008 = .error .reservedBits ∧ decodeCommand 0x8005 = .error .reservedBits := by decide
theorem test_decode_status :
    decode (.frame (decText .accept stText)) = .ok (.status 0x00 0x30 0x01 0x05 0x32 0x38 0x24 0x64 []) := by
  decide +kernel
theorem test_decode_setack :
    decode (.frame (decText .accept ackText)) = .ok (.setack 0x00 0x30 0x00 .bright 0x01 0x4B []) := by decide +kernel
theorem test_decode_setcmd :
    decode (.frame (decText .accept cmdText)) = .ok (.setcmd 0x00 0x30 [0x00, 0x02, 0x01, 0x32]) := by decide +kernel
theorem test_decode_hello :
    decode (.frame (decText .accept helloText)) = .ok (.other [0x00, 0x00, 0x53, 0x00, 0x00, 0x01, 0x00]) := by
  decide +kernel
/-- V-PARSE-17 and V-PARSE-18: a field code above 5, and a status frame one byte short, are `OTHER`. -/
theorem test_decode_set_aside :
    decode (.frame (decText .accept ackCode6Text)) = .ok (.other [0x00, 0x30, 0x02, 0x00, 0x06, 0x01, 0x4B]) ∧
    decode (.frame (decText .accept shortStatusText)) =
      .ok (.other [0x00, 0x30, 0x03, 0x01, 0x05, 0x32, 0x38, 0x24]) := by decide +kernel
/-- V-PARSE-14, 13, 7, 10: each check refuses by its name. -/
theorem test_decode_rejects :
    decode (.frame []) = .error (.noFrame .shortText) ∧
    decode (.frame [0x4C, 0x55, 0x00]) = .error (.noFrame .badMagic) ∧
    decode (.frame [0x4C, 0x54, 0x09, 0x00, 0x30]) = .error (.noFrame .badLength) ∧
    decode (.frame (decText .accept badText)) = .error (.noFrame (.badChecksum 0xB58F)) := by decide +kernel
theorem test_encode_examples :
    encode (.setcmd 0x00 0x30 [0x00, 0x02, 0x01, 0x32]) = .frame (decText .accept cmdText) ∧
    encode (.status 0x00 0x30 0x01 0x05 0x32 0x38 0x24 0x64 []) = .frame (decText .accept stText) ∧
    encode .parse = .command 0x0005 := by decide +kernel
/-- The 48-bit headers of R106 (log 12). -/
theorem test_decodeTableWord_frames :
    (decodeTableWord 48 0x4C540B003003).map (·.mnemonic) = some "STATUS" ∧
    (decodeTableWord 48 0x4C5409003002).map (·.mnemonic) = some "SETACK" ∧
    (decodeTableWord 48 0x4C5409003057).map (·.mnemonic) = some "SETCMD" ∧
    (decodeTableWord 48 0x4C5409000053).map (·.mnemonic) = some "OTHER" ∧
    decodeTableWord 48 0x4C5400000003 = none := by decide +kernel

/-! ## The pure functions -/

/-- `nib` on the neighbours of the digit ranges (95 section 2). -/
theorem test_nib :
    [0x2F, 0x30, 0x39, 0x3A, 0x40, 0x41, 0x46, 0x47, 0x60, 0x67, 0x80, 0xFF].map (nib .reject) =
      [0, 0, 9, 0, 0, 10, 15, 0, 0, 0, 0, 0] ∧
    [0x61, 0x66].map (nib .accept) = [10, 15] ∧ [0x61, 0x66].map (nib .reject) = [0, 0] := by decide
/-- V-CRC-8: the bytes of ASCII `123456789`. -/
theorem test_crc_check_value :
    crcBytes [0x31, 0x32, 0x33, 0x34, 0x35, 0x36, 0x37, 0x38, 0x39] = 0x31C3 := by decide +kernel
/-- 95 section 3. -/
theorem test_crcStep : crcStep 0xFFFF 0x20 = 0xC592 ∧ crcStep 0x8948 0x54 = 0x52D0 := by decide

/-! ## One step of each instruction -/

theorem test_nop : (nextOf (step (accepted 0))).map (fun t => (t.ptrace, t.phase)) = some ([.done], .idle) := by
  decide +kernel
/-- R45: an accepted command raises `busy`, whatever the operation; R232: a refused one does not. -/
theorem test_busy :
    ([0, 1, 2, 3, 4, 5, 6, 7, 8] : List Word).map (fun w =>
      (nextOf (step (facing (.write .reg 0 w)))).map (fun t => (t.busy, t.ptrace.length))) =
      [some (true, 0), some (true, 0), some (true, 0), some (true, 0), some (true, 0), some (true, 0), some (true, 0),
        some (true, 0), some (false, 1)] := by decide +kernel
/-- R260: a reset abandons an accepted operation before its `Done`, and a read held behind it returns one value. -/
theorem test_reset_abandons_operation :
    (nextOf (step { accepted 3 with held := some (.read .reg 6), inputs := [.rst] })).map
      (fun t => (t.phase, t.outlen, t.ptrace.contains .done, t.ptrace.length)) = some (.idle, 0, false, 1) := by
  decide +kernel
/-- V-DEC-13. -/
theorem test_hexdec_bad_digit :
    (nextOf (exec .hexdec (onText [0x34, 0x43, 0x35, 0x47]))).map (fun t => (t.scr, t.outlen)) =
      some ([(0, 0x4C), (1, 0x50)], 2) := by decide +kernel
/-- V-DEC-10 with `reject`. -/
theorem test_hexdec_reject :
    (nextOf (exec .hexdec { onText [0x30, 0x39, 0x41, 0x46, 0x61, 0x66] with lowercase := .reject })).map (·.scr) =
      some [(0, 0x09), (1, 0xAF), (2, 0x00)] := by decide +kernel
/-- V-ENC-8. -/
theorem test_hexenc :
    (nextOf (exec .hexenc { State.reset.memWrite .scr 0 [0xAB, 0x0C, 0xF0] with len := 3 })).map
      (fun t => (t.txbuf.map (·.2), t.outlen)) = some ([0x41, 0x42, 0x30, 0x43, 0x46, 0x30], 6) := by decide +kernel
/-- V-ENC-10, V-SYS-11. -/
theorem test_hexenc_refused :
    (nextOf (exec .hexenc { State.reset with len := 1025 })).map (fun t => (t.status, t.txbuf, t.outlen, t.ptrace)) =
      some (0x5, [], 0, [.done]) := by decide +kernel
/-- V-E16-1. -/
theorem test_hexenc16 :
    (nextOf (exec .hexenc16 { State.reset with val := 0x4A8F })).map (fun t => (t.txbuf.map (·.2), t.outlen)) =
      some ([0x34, 0x41, 0x38, 0x46], 4) := by decide +kernel
/-- V-CRC-9: the 20 characters of the source's body. -/
theorem test_crc16 : (nextOf (exec .crc16 (onText (cmdText.take 20)))).map (·.crc) = some 0x4A8F := by decide +kernel
/-- V-CRC-13: an odd last character is ignored. -/
theorem test_crc16_odd : (nextOf (exec .crc16 (onText [0x30, 0x31, 0x31]))).map (·.crc) = some 0x1021 := by
  decide +kernel
/-- V-PARSE-10: the loop stops with code 4 and the computed checksum. -/
theorem test_parse_bad_checksum :
    ((started badText).phase, (afterOne badText).phase, (afterOne badText).stopwhy, (afterOne badText).crc,
      (afterOne badText).frames) = (.running .frames, .idle, 4, 0xB58F, 0) := by decide +kernel
/-- V-PARSE-34: refused. -/
theorem test_parse_refused :
    (nextOf (exec .parse { State.reset with len := 2049, frames := 7 })).map (fun t => (t.status, t.frames, t.phase)) =
      some (0x5, 7, .idle) := by decide +kernel
/-- V-BUILD-1. -/
theorem test_buildset :
    (nextOf (exec .buildset { State.reset with sel := 2, val := 50 })).map
      (fun t => (t.txbuf.map (·.2), t.crc, t.outlen)) = some (cmdText, 0x4A8F, 24) := by decide +kernel
/-- V-BUILD-7: hue -5 clamps to 0. -/
theorem test_buildset_negative :
    (nextOf (exec .buildset { State.reset with sel := 4, val := 0xFFFB })).map (·.crc) = some 0xEE3E := by
  decide +kernel
/-- V-SYS-9. -/
theorem test_dsclr :
    (nextOf (exec .dsclr (afterOne ackText))).map (fun t => (t.ds, t.ntrace.length)) = some (.unknown, 1) := by
  decide +kernel
/-- V-PARSE-3. -/
theorem test_status :
    ((afterOne stText).ds, (afterOne stText).hcur, (afterOne stText).bcur, (afterOne stText).crc) =
      (⟨some 1, some 5, some 50, some 56, some 36, some 100⟩, 28, 14, 0xC33B) := by decide +kernel
/-- V-PARSE-4. -/
theorem test_setack :
    ((afterOne ackText).ds, (afterOne ackText).ntrace, (afterOne ackText).notifs) =
      (⟨none, none, some 75, none, none, none⟩, [⟨none, none, some 75, none, none, none⟩], 1) := by decide +kernel
/-- V-PARSE-1. -/
theorem test_setcmd :
    ((afterOne cmdText).ds, (afterOne cmdText).ignored, (afterOne cmdText).hcur) = (.unknown, 1, 24) := by
  decide +kernel
/-- V-PARSE-16a. -/
theorem test_other :
    ((afterOne minimalText).frames, (afterOne minimalText).ignored, (afterOne minimalText).bcur) = (1, 1, 5) := by
  decide +kernel
/-- The next step after `withFetchWord` runs the instruction. -/
theorem test_withFetchWord :
    (nextOf (step (State.reset.withFetchWord 16 3))).map (·.outlen) = some 4 ∧
    (nextOf (step (State.reset.withFetchWord 48 0x4C540B003003))).map (·.ds.sat) = some (some 0) := by decide +kernel
/-- R206: `setSaturation` uses field code 5. -/
theorem test_setSaturation_program : setCommand .sat 50 = [.write .reg 4 5, .write .reg 3 50, .write .reg 0 6] := by
  decide +kernel

/-! ## Witnesses: each meets all hypotheses of the statement it is named after -/

/-- A running state of a text without stale parts meets the invariant; used by the witnesses below. -/
theorem witness_inv_started : Inv (started minimalText) ∧ Advances (started minimalText) .frames (started minimalText) :=
  ⟨{ rxbufWf := by decide +kernel, scrWf := by decide +kernel, txbufWf := by decide +kernel
     statusLegal := .inl (by decide +kernel), stopLegal := by decide +kernel, counters := by decide +kernel
     fiveBytes := by decide +kernel, lockStep := by decide +kernel, cursorCap := by decide +kernel
     outlenCap := by decide +kernel, traceCount := by decide +kernel, notifsTraced := by decide +kernel
     accepted := fun w h => absurd ((show (started minimalText).phase = .running .frames by decide +kernel).symm.trans h)
      (by simp)
     inLoop := fun _ =>
      { lenFits := by decide +kernel, cursorFits := by decide +kernel, outlenIs := by decide +kernel
        stopZero := by decide +kernel, decoded := by decide +kernel } },
    ⟨by decide +kernel, .inl ⟨by decide +kernel, rfl⟩⟩⟩
/-- An accepted operation that has not been executed yet meets the invariant. -/
theorem witness_inv_accepted : Inv (accepted 5) ∧ Advances (accepted 5) (.operation 5) (accepted 5) :=
  ⟨{ rxbufWf := rfl, scrWf := rfl, txbufWf := rfl, statusLegal := .inl rfl, stopLegal := by decide, counters := rfl
     fiveBytes := by decide, lockStep := rfl, cursorCap := by decide, outlenCap := by decide, traceCount := rfl
     notifsTraced := by decide
     accepted := fun w h => by
      have hw : w = 5 := by simpa [accepted, State.start] using h.symm
      exact ⟨.parse, by rw [hw]; decide, by decide⟩
     inLoop := fun h => by simp [accepted, State.start] at h }, ⟨rfl, .inl ⟨rfl, rfl⟩⟩⟩
/-- The two ways a transaction takes effect: as the next input, and after it was held, with something else coming in. -/
theorem witness_acts (t : HostTxn) :
    Acts (facing t) t State.reset ∧
    Acts { State.reset with held := some t, inputs := [.quiet] } t { State.reset with inputs := [.quiet] } :=
  ⟨⟨rfl, .inl ⟨rfl, [], rfl, rfl⟩⟩, ⟨rfl, .inr ⟨rfl, fun rest h => by simp at h, rfl⟩⟩⟩
/-- The three ways the sequencer goes on. -/
theorem witness_advances (x y : HostTxn) :
    Advances (accepted 1) (.operation 1) (accepted 1) ∧
    Advances { accepted 1 with inputs := [.quiet] } (.operation 1) (accepted 1) ∧
    Advances { accepted 1 with held := some x, inputs := [.txn y] } (.operation 1)
      { accepted 1 with held := some x, inputs := [.txn y] } :=
  ⟨⟨rfl, .inl ⟨rfl, rfl⟩⟩, ⟨rfl, .inr (.inl ⟨[], rfl, rfl⟩)⟩, ⟨rfl, .inr (.inr ⟨y, [], x, rfl, rfl, rfl⟩)⟩⟩

/-- Idle, idle with a transaction held, accepted, and in the loop, each with a transaction held. -/
theorem witness_ResetAbandonsWhatRuns :
    ({ State.reset with inputs := [.rst] } : State).inputs = .rst :: [] ∧
    ({ State.reset with held := some (.read .reg 2), inputs := [.rst] } : State).inputs = .rst :: [] ∧
    ({ accepted 2 with held := some (.write .reg 2 1), inputs := [.rst] } : State).inputs = .rst :: [] ∧
    ({ started minimalText with held := some (.read .reg 2), inputs := [.rst] } : State).inputs = .rst :: [] :=
  ⟨rfl, rfl, rfl, rfl⟩
theorem safe_of_isSome {s : State} (h : (nextOf (step s)).isSome = true) : Safe s := by
  unfold nextOf at h
  split at h
  · exact ⟨_, by assumption⟩
  · exact absurd h (by simp)
  · exact absurd h (by simp)
theorem witness_EveryStepKeepsTheInvariant : Inv (started minimalText) ∧ Safe (started minimalText) :=
  ⟨witness_inv_started.1, safe_of_isSome (by decide +kernel)⟩
theorem witness_DecodeUndoesEncode :
    (Instr.setack 1 2 3 .hue 5 6 [7]).wf = true ∧ (Instr.other [0, 0, 2, 0, 6, 1, 9]).wf = true := by decide
theorem witness_DecodedFrameIsItsEncoding :
    decodeFrame (decText .accept minimalText ++ [9]) = .ok (.other []) := by decide +kernel
theorem witness_TableRowsAgreeWithTheClasses :
    (2 : Byte).toNat = ([] : List Byte).length + 2 ∧ (255 : Byte).toNat = (List.replicate 253 (3 : Byte)).length + 2 ∧
    (9 : Byte).toNat = ([] : List Byte).length + 9 ∧ 5 < (6 : Byte).toNat := by
  decide +kernel
theorem witness_StepRunsTheInstruction :
    Advances (accepted 5) (.operation 5) (accepted 5) ∧ decodeCommand 5 = .ok .parse ∧
    Advances (started minimalText) .frames (started minimalText) ∧
    (started minimalText).examine = .ok (.other [], 0x8AF5) :=
  ⟨witness_inv_accepted.2, by decide, witness_inv_started.2, by decide +kernel⟩
/-- One state per clause, at the boundary of the range check. -/
theorem witness_CommandAcceptance :
    (∀ w, Acts (facing (.write .reg 0 w)) (.write .reg 0 w) State.reset) ∧
    (decodeCommand 1 = .ok .hexdec ∧ refusalOf .hexdec { State.reset with len := 2048 } = none) ∧
    (decodeCommand 1 = .ok .hexdec ∧ refusalOf .hexdec { State.reset with len := 2049 } = some .lenRange) ∧
    decodeCommand 8 = .error .reservedBits :=
  ⟨fun w => (witness_acts (.write .reg 0 w)).1, by decide, by decide, by decide⟩
theorem witness_OnlyAcceptedCommandsRun :
    (nextOf (step (facing (.write .reg 0 7)))).map (·.phase) = some (.running (.operation 7)) ∧
    (nextOf (step (accepted 7))).map (·.phase) = some .idle ∧
    (nextOf (step (accepted 5))).map (·.phase) = some (.running .frames) := by decide +kernel
theorem witness_StepRunsTheFrameInScratch :
    Inv (started minimalText) ∧ Advances (started minimalText) .frames (started minimalText) ∧
      decodeFrame (started minimalText).remainingBytes = .ok (.other []) :=
  ⟨witness_inv_started.1, witness_inv_started.2, by decide +kernel⟩
theorem witness_FetchWordRunsTheDecodedInstruction :
    decodeTableWord 16 7 = some .dsclr ∧ decodeTableWord 48 0x4C5402000000 = some (.other []) := by decide +kernel
theorem witness_ReservedBitsAreRefused :
    (0x0008 : Word).extractLsb' 3 13 ≠ 0 ∧ (0xFFFF : Word).extractLsb' 3 13 ≠ 0 ∧
      Acts (facing (.write .reg 0 0xFFFF)) (.write .reg 0 0xFFFF) State.reset :=
  ⟨by decide, by decide, (witness_acts _).1⟩
/-- Both clauses of the statements on `HEXDEC`, `CRC16` and `PARSE`, at their boundary. -/
theorem witness_text_capacity :
    2048 < ({ State.reset with len := 2049 } : State).len.toNat ∧
    ({ State.reset with len := 2048 } : State).len.toNat ≤ 2048 := by decide
/-- Both clauses of the statement on `HEXENC`, at their boundary. -/
theorem witness_HexencEncodesTheBytes :
    1024 < ({ State.reset with len := 1025 } : State).len.toNat ∧
    ({ State.reset with len := 1024 } : State).len.toNat ≤ 1024 := by decide
theorem witness_ParseRunsToItsResult :
    (onText stText).len.toNat ≤ 2048 ∧ (onText stText).held = none ∧ (onText stText).inputs = [] ∧
    Acts { onText stText with inputs := [.txn (.write .reg 0 5)] } (.write .reg 0 5) (onText stText) :=
  ⟨by decide +kernel, by decide +kernel, by decide +kernel, ⟨by decide +kernel, .inl ⟨by decide +kernel, [], rfl, rfl⟩⟩⟩
theorem witness_EveryOperationEnds :
    Inv (started minimalText) ∧ (started minimalText).phase = .running .frames ∧ Inv (accepted 5) ∧
      (accepted 5).phase = .running (.operation 5) :=
  ⟨witness_inv_started.1, witness_inv_started.2.1, witness_inv_accepted.1, rfl⟩
theorem witness_BuildsetBuildsTheFrame :
    ({ State.reset with sel := 6 } : State).sel = 6 ∧ (7 : BitVec 3) = 7 ∧
    ∀ f : Setting, ({ State.reset with sel := (fieldCode f).setWidth 3 } : State).sel = (fieldCode f).setWidth 3 :=
  ⟨rfl, rfl, fun _ => rfl⟩
theorem witness_ClampIsTheStatedRange : (0 : Int) < clampLo .channel ∧ clampHi .channel < 13 := by decide
theorem witness_BuiltFrameValidatesAndIsIgnored :
    cmdText = encBytes (setBody .bright 50) ++ encBe16 (crcBytes (setBody .bright 50)) := by decide +kernel
theorem witness_StatusFrameInTheText :
    Advances (started stText) .frames (started stText) ∧ Candidate (started stText) 11 ∧ (started stText).frameByte 5 = 0x03 :=
  ⟨⟨by decide +kernel, .inl ⟨by decide +kernel, rfl⟩⟩, ⟨by decide +kernel, by decide +kernel, by decide +kernel,
    by decide +kernel, by decide +kernel, by decide +kernel⟩, by decide +kernel⟩
theorem witness_SetackFrameInTheText :
    Advances (started ackText) .frames (started ackText) ∧ Candidate (started ackText) 9 ∧ (started ackText).frameByte 5 = 0x02 ∧
      (started ackText).frameByte 7 = fieldCode .bright :=
  ⟨⟨by decide +kernel, .inl ⟨by decide +kernel, rfl⟩⟩, ⟨by decide +kernel, by decide +kernel, by decide +kernel,
    by decide +kernel, by decide +kernel, by decide +kernel⟩, by decide +kernel, by decide +kernel⟩
theorem witness_OtherFramesAreOnlyCounted :
    Inv (started minimalText) ∧ Advances (started minimalText) .frames (started minimalText) ∧
      Candidate (started minimalText) 2 ∧
      ¬(11 ≤ 2 ∧ (started minimalText).frameByte 5 = 0x03) ∧
      ¬(9 ≤ 2 ∧ (started minimalText).frameByte 5 = 0x02 ∧ ((started minimalText).frameByte 7).toNat ≤ 5) :=
  ⟨witness_inv_started.1, witness_inv_started.2, ⟨by decide +kernel, by decide +kernel, by decide +kernel,
    by decide +kernel, by decide +kernel, by decide +kernel⟩, fun h => absurd h.1 (by decide),
    fun h => absurd h.1 (by decide)⟩
/-- V-PARSE-15a, 15b's magic, 7's length and 10: one state per clause, at its boundary where it has one. -/
theorem witness_ParseStopsAtTheFirstFailedCheck :
    (started (stText.take 5)).phase = .running .frames ∧ (started (stText.take 5)).len.toNat = 5 ∧
    (started (helloText.drop 2)).frameByte 0 = 0x54 ∧ (started (ackText.take 23)).len.toNat / 2 = 11 ∧
    (started badText).textCrc 12 = 0xB58F ∧ (started badText).hcur.toNat = 2 * (started badText).bcur.toNat := by
  decide +kernel
theorem witness_ValidatedFramesHaveFiveBytes :
    Inv (started minimalText) ∧ (started minimalText).phase = .running .frames ∧ Candidate (started minimalText) 2 :=
  ⟨witness_inv_started.1, witness_inv_started.2.1, witness_OtherFramesAreOnlyCounted.2.2.1⟩
theorem witness_TextAndScratchChecksumsAgree :
    Inv (started minimalText) ∧ (started minimalText).phase = .running .frames ∧
      (started minimalText).bcur.toNat + 5 ≤ (started minimalText).len.toNat / 2 :=
  ⟨witness_inv_started.1, witness_inv_started.2.1, by decide +kernel⟩
theorem witness_ParsesConcatenate :
    minimalText.length % 2 = 0 ∧ 2 * (parseText .reject minimalText .unknown).consumed = minimalText.length := by
  decide +kernel
theorem witness_ParsingTwiceGivesTheSame :
    (parseText .accept stText .unknown).frames = 1 ∧
      (parseText .accept stText (parseText .accept stText .unknown).ds).frames = 1 := by decide +kernel
theorem witness_OneChangedDigitChangesTheCrc :
    nib .accept 0x32 ≠ nib .accept ([0x30, 0x31].getD 1 0) ∧ nib .accept 0x47 = nib .accept ([0x30, 0x31].getD 0 0) := by
  decide
theorem witness_RefusalsAreExactlyTheListed :
    refusalOf .buildset { State.reset with sel := 6 } = some .selRange ∧
    refusalOf .hexenc { State.reset with len := 1025 } = some .lenRange ∧
    refusalOf .hexdec { State.reset with len := 2048 } = none := by decide
theorem witness_StatusClearIsWriteOne : Acts (facing (.write .reg 1 1)) (.write .reg 1 1) State.reset :=
  (witness_acts _).1
/-- V-SYS-8. -/
theorem witness_ErrIsSticky :
    errBit ({ facing (.write .reg 1 1) with status := 5 } : State).status = true ∧
    (nextOf (step { facing (.write .reg 1 1) with status := 5 })).map (fun t => errBit t.status) = some false := by
  decide +kernel
/-- For the statements whose only hypothesis is that an instruction answers next. -/
theorem witness_exec_answers :
    (nextOf (exec .parse (onText minimalText))).isSome = true ∧ (nextOf (exec .hexdec (onText minimalText))).isSome = true ∧
    (nextOf (exec .buildset { State.reset with sel := 7 })).isSome = true := by decide +kernel
/-- One step per clause. -/
theorem witness_OnlyFramesDsclrAndResetWriteDeviceState :
    (afterOne ackText).ds ≠ (started ackText).ds ∧
    (nextOf (step { (afterOne ackText).start 7 with inputs := [.quiet] })).map (·.ds) = some .unknown ∧
    (nextOf (step { afterOne ackText with inputs := [.rst] })).map (·.ds) = some .unknown := by decide +kernel
theorem witness_TraceOnlyGrows : (nextOf (step (started ackText))).map (·.ntrace.length) = some 1 := by decide +kernel
theorem witness_DoneEndsEveryCommand :
    Acts { State.reset with held := some (.write .reg 0 9), inputs := [.quiet] } (.write .reg 0 9)
      { State.reset with inputs := [.quiet] } ∧
    Advances (accepted 5) (.operation 5) (accepted 5) ∧ Advances (started minimalText) .frames (started minimalText) ∧
    (∀ w u, ¬Acts State.reset (.write .reg 0 w) u) ∧ ∀ job u, ¬Advances State.reset job u :=
  ⟨(witness_acts _).2, witness_inv_accepted.2, witness_inv_started.2,
    fun w u h => by simp [Acts, State.reset] at h, fun job u h => by simp [Advances, State.reset] at h⟩
theorem witness_HostReadsTheRegisters : Acts (facing (.read .reg 12)) (.read .reg 12) State.reset := (witness_acts _).1
/-- V-SYS-13 and V-SYS-14: one index per clause. -/
theorem witness_HostWritesTheOperands :
    ∀ i, i = 2 ∨ i = 3 ∨ i = 4 ∨ i = 5 → Acts (facing (.write .reg i 0x1800)) (.write .reg i 0x1800) State.reset :=
  fun _ _ => (witness_acts _).1
/-- V-SYS-15: the last location and the first out of range. -/
theorem witness_HostAccessesTheBuffers :
    Acts (facing (.write (.buf .rxbuf) 2047 0x41)) (.write (.buf .rxbuf) 2047 0x41) State.reset ∧
    2047 < Buffer.rxbuf.capacity ∧ Buffer.rxbuf.capacity ≤ 2048 ∧ 1023 < Buffer.scr.capacity ∧
    Acts (facing (.read (.buf .txbuf) 2048)) (.read (.buf .txbuf) 2048) State.reset :=
  ⟨(witness_acts _).1, by decide, by decide, by decide, (witness_acts _).1⟩
/-- One state per clause. -/
theorem witness_TransactionsAreHeldWhileBusy :
    ({ accepted 1 with inputs := [.txn (.read .reg 7)] } : State).held = none ∧
    Advances (accepted 1) (.operation 1) (accepted 1) ∧ (nextOf (step (accepted 1))).isSome = true ∧
    ({ accepted 1 with held := some (.read .reg 7) } : State).held ≠ none ∧
    ∀ rest, ({ State.reset with held := some (.read .reg 7) } : State).inputs ≠ .rst :: rest :=
  ⟨rfl, (witness_advances (.read .reg 7) (.read .reg 7)).1, by decide +kernel, by decide, fun rest h => by simp [State.reset] at h⟩
theorem witness_IdleHoldsItsState :
    State.reset.phase = .idle ∧ State.reset.held = none ∧ State.reset.inputs = [] := ⟨rfl, rfl, rfl⟩
theorem witness_TextAboveLenIsNeverRead :
    ∀ a, a < (onText minimalText).len.toNat →
      ({ onText minimalText with rxbuf := (onText minimalText).rxbuf ++ [(10, 0x41)] } : State).peek .rxbuf a =
        (onText minimalText).peek .rxbuf a := by decide +kernel
theorem witness_LowercaseParameterTouchesOnlyInput :
    ∀ c ∈ stText ++ [0x60, 0x67], c.toNat < 0x61 ∨ 0x66 < c.toNat := by decide +kernel

end Sys2Proof.Tests
end

section
/-! PROOFS. The scope statements: which instruction a step runs (O10), what the host reads and writes (O51, O53), and
where the parameter `LOWERCASE_HEX` has no influence (O57). -/

namespace Sys2Proof.Machine

/-! ## Going on with a job -/

/-- The checks see the same candidate in the state the sequencer goes on from. -/
theorem Advances.examine {s u : State} {job : Job} (h : Advances s job u) : u.examine = s.examine := by
  rw [h.eq]
  exact s.examine_outside s.held u.inputs

theorem runCommand_of_decode {w : Word} {i : Instr} (h : decodeCommand w = .ok i) (s : State) :
    runCommand w s = exec i s := by
  simp only [runCommand, h]

theorem runFrame_of_examine {s : State} {i : Instr} {c : Word} (h : s.examine = .ok (i, c)) :
    runFrame s = exec i { s with crc := c } := by
  simp only [runFrame, h]

/-- Settles O10: a step that goes on runs the job, and the job runs what its word or its candidate decodes to. -/
theorem stepRunsTheInstruction : Obligations.StepRunsTheInstruction := by
  unfold Obligations.StepRunsTheInstruction
  refine ⟨fun s u w i ha hd => ?_, fun s u i c ha he => ?_⟩
  · calc step s = runCommand w u := step_advances ha
      _ = exec i u := runCommand_of_decode hd u
  · calc step s = runFrame u := step_advances ha
      _ = exec i { u with crc := c } := runFrame_of_examine (ha.examine.trans he)

/-! ## Reading the register space -/

/-- A read that takes effect returns `hostRead`, whatever the space (R8). -/
theorem step_read {s u : State} {sp : Space} {a : Nat} (h : Acts s (.read sp a) u) :
    step s = .next (u.returnValue (u.hostRead sp a)) :=
  step_acts h

/-- A DeviceState register as a number: 0x000 unknown, 0x100 + value known (R36). -/
theorem knownWord_toNat (o : Option Byte) : (knownWord o).toNat =
    match o with
    | some v => 256 + v.toNat
    | none => 0 := by
  cases o with
  | none => rfl
  | some v => revert v; decide

/-- Index 16 + code is the register of the DeviceState field the code names (R36, R102). -/
theorem State.readReg_field (s : State) (f : Setting) :
    s.readReg (16 + (fieldCode f).toNat) = (knownWord (s.ds.get f)).setWidth 16 := by
  cases f <;> rfl

/-- Reserved indices read 0 (R21). -/
theorem State.readReg_reserved (s : State) {i : Nat} (h : (13 ≤ i ∧ i ≤ 15) ∨ 22 ≤ i) : s.readReg i = 0 := by
  unfold State.readReg
  split
  case h_19 => rfl
  all_goals omega

/-- Zero-extension to a port value keeps a register's number (R8). -/
theorem toNat_portValue {n : Nat} (x : BitVec n) (hn : n ≤ 16 := by decide) : (x.setWidth 16).toNat = x.toNat :=
  BitVec.toNat_setWidth_of_le hn

/-- Settles O51: the read is `step_read`, and `readReg` is compared with each register of R21. -/
theorem hostReadsTheRegisters : Obligations.HostReadsTheRegisters := by
  unfold Obligations.HostReadsTheRegisters
  refine ⟨fun s u i h => step_read h, fun s => ?_⟩
  refine ⟨rfl, toNat_portValue s.status, toNat_portValue s.len, rfl, toNat_portValue s.sel, rfl,
    toNat_portValue s.outlen, toNat_portValue s.frames, toNat_portValue s.notifs, toNat_portValue s.ignored,
    toNat_portValue s.stopwhy, toNat_portValue s.hcur, toNat_portValue s.bcur, fun f => ?_,
    fun i => s.readReg_reserved⟩
  calc (s.readReg (16 + (fieldCode f).toNat)).toNat
      _ = (knownWord (s.ds.get f)).toNat := by rw [s.readReg_field f, toNat_portValue]
      _ = _ := knownWord_toNat (s.ds.get f)

/-! ## Host accesses to the buffers -/

theorem hostWriteReg_readOnly {i : Nat} (hi : 5 ≤ i) (v : Word) (s : State) : hostWriteReg i v s = .next s := by
  unfold hostWriteReg
  split
  case h_6 => rfl
  all_goals omega

theorem State.hostWriteBuf_ignored (s : State) {b : Buffer} {a : Nat} (v : Word) (h : b = .txbuf ∨ b.capacity ≤ a) :
    s.hostWriteBuf b a v = s := by
  cases b with
  | txbuf => rfl
  | rxbuf => exact if_neg (by simpa using h)
  | scr => exact if_neg (by simpa using h)

theorem State.hostWriteBuf_inRange (s : State) {b : Buffer} {a : Nat} (v : Word) (hb : b ≠ .txbuf)
    (ha : a < b.capacity) : s.hostWriteBuf b a v = s.memWrite b a [v.setWidth 8] := by
  cases b with
  | txbuf => exact absurd rfl hb
  | rxbuf => exact if_pos ha
  | scr => exact if_pos ha

/-- A write of one byte, read back at any location. -/
theorem State.peek_memWrite_byte (s : State) (b b' : Buffer) (a a' : Nat) (v : Byte) :
    (s.memWrite b a [v]).peek b' a' = if b' = b ∧ a' = a then v else s.peek b' a' := by
  have hat : (a ≤ a' ∧ a' < a + [v].length) ↔ a' = a := by
    rw [List.length_singleton]; omega
  simp only [State.peek_memWrite, hat]
  split
  · next h => rw [h.2, Nat.sub_self]; rfl
  · rfl

/-- A write to `RXBUF` or `SCR` changes no field but these two. -/
theorem State.memWrite_frame (s : State) {b : Buffer} (a : Nat) (vs : List Byte) (hb : b ≠ .txbuf) :
    s.memWrite b a vs = { s with rxbuf := (s.memWrite b a vs).rxbuf, scr := (s.memWrite b a vs).scr } := by
  cases b with
  | txbuf => exact absurd rfl hb
  | rxbuf => rfl
  | scr => rfl

/-- The buffers a transaction meets are those of the state before the step. -/
theorem Acts.peek {s u : State} {t : HostTxn} (h : Acts s t u) (b : Buffer) (a : Nat) : u.peek b a = s.peek b a := by
  rw [h.eq.1]
  exact State.peek_congr (by cases b <;> rfl) rfl a

/-- Settles O53: a buffer write is ignored or is one `memWrite` of one byte, and a read is `hostRead`. -/
theorem hostAccessesTheBuffers : Obligations.HostAccessesTheBuffers := by
  unfold Obligations.HostAccessesTheBuffers
  refine ⟨fun s u b a v h => ?_, fun s u b a h => ?_, ⟨rfl, rfl, rfl⟩, fun s i hi => ?_⟩
  · have hstep : step s = .next (u.hostWriteBuf b a v) := step_acts h
    refine ⟨fun hout => by rw [hstep, u.hostWriteBuf_ignored v hout], fun hb ha => ?_⟩
    rw [u.hostWriteBuf_inRange v hb ha] at hstep
    refine ⟨_, hstep, ?_, fun b' a' hne => ?_, u.memWrite_frame a _ hb⟩
    · rw [State.peek_memWrite_byte, if_pos ⟨rfl, rfl⟩]
    · rw [State.peek_memWrite_byte, if_neg (not_and_or.mpr hne), h.peek]
  · rw [step_read h, ← h.peek b a]
    rfl
  · refine ⟨s.readReg_reserved hi.symm, fun v u h => ?_⟩
    calc step s = hostWriteReg i v u := step_acts h
      _ = .next u := hostWriteReg_readOnly (by omega) v u

/-! ## The parameter `LOWERCASE_HEX` -/

theorem State.memRead_lowercase (s : State) (lc : LowercaseHex) (b : Buffer) (a n : Nat) :
    ({ s with lowercase := lc } : State).memRead b a n = s.memRead b a n :=
  State.memRead_congr fun _ _ => by cases b <;> rfl

/-- Writing a text to `TXBUF` with its checksum and length, and `Done`, commute with a change of the parameter. -/
theorem State.writeText_with_lowercase (s : State) (lc : LowercaseHex) (text : List Byte) (c : Word) (n : BitVec 12) :
    ({ ({ s with lowercase := lc } : State).memWrite .txbuf 0 text with crc := c, outlen := n } : State).emitDone =
      { ({ s.memWrite .txbuf 0 text with crc := c, outlen := n } : State).emitDone with lowercase := lc } :=
  rfl

/-- `HEXENC` answers the same state for either value of the parameter (R138). -/
theorem execHexenc_with_lowercase {s t : State} (lc : LowercaseHex) (h : execHexenc s = .next t) :
    execHexenc { s with lowercase := lc } = .next { t with lowercase := lc } := by
  have hfit : ({ s with lowercase := lc } : State).bytesFit = s.bytesFit := rfl
  have hread : ({ s with lowercase := lc } : State).bytesOperand = s.bytesOperand := s.memRead_lowercase lc .scr 0 _
  unfold execHexenc at h ⊢
  rw [hfit, hread]
  split at h
  · next hf => cases h; rw [if_pos hf]; rfl
  · next hf => cases h; rw [if_neg hf]; rfl

/-- `HEXENC16` answers the same state for either value of the parameter (R138). -/
theorem execHexenc16_with_lowercase {s t : State} (lc : LowercaseHex) (h : execHexenc16 s = .next t) :
    execHexenc16 { s with lowercase := lc } = .next { t with lowercase := lc } := by
  cases h; rfl

/-- `BUILDSET` answers the same state for either value of the parameter (R138). -/
theorem execBuildset_with_lowercase {s t : State} (lc : LowercaseHex) (h : execBuildset s = .next t) :
    execBuildset { s with lowercase := lc } = .next { t with lowercase := lc } := by
  have hset : ({ s with lowercase := lc } : State).setting = s.setting := rfl
  have hval : ({ s with lowercase := lc } : State).signedVal = s.signedVal := rfl
  unfold execBuildset at h ⊢
  rw [hset, hval]
  cases hf : s.setting with
  | none => rw [hf] at h; cases h; rfl
  | some f =>
    rw [hf] at h
    rw [← Host.Outcome.next.inj h]
    exact congrArg Host.Outcome.next (s.writeText_with_lowercase lc _ _ _)

/-- A character that is no lowercase hex letter has the same value either way (R94). -/
theorem nib_lowercase {c : Byte} (h : c.toNat < 0x61 ∨ 0x66 < c.toNat) : nib .accept c = nib .reject c := by
  have hc : ¬(0x61 ≤ c.toNat ∧ c.toNat ≤ 0x66) := by omega
  simp only [nib, if_neg hc]

/-- A text without `a` to `f` decodes alike for either value of the parameter (R138). -/
theorem decText_lowercase (t : List Byte) (ht : ∀ c ∈ t, c.toNat < 0x61 ∨ 0x66 < c.toNat) :
    decText .accept t = decText .reject t := by
  induction t using decText.induct with
  | case1 h l t ih =>
    rw [List.forall_mem_cons, List.forall_mem_cons] at ht
    obtain ⟨hh, hl, ht⟩ := ht
    simp only [decText, hexbyte, nib_lowercase hh, nib_lowercase hl, ih ht]
  | case2 => rfl
  | case3 => rfl

@[simp] theorem State.clearStatus_lowercase (s : State) (v : Word) : (s.clearStatus v).lowercase = s.lowercase := by
  unfold State.clearStatus
  split <;> rfl

/-- No instruction writes the parameter. -/
theorem exec_lowercase {i : Instr} {s t : State} (h : exec i s = .next t) : t.lowercase = s.lowercase := by
  cases i with
  | hexdec => rcases execHexdec_cases s with ⟨_, e⟩ | ⟨_, e⟩ <;> cases e.symm.trans h <;> simp
  | hexenc => rcases execHexenc_cases s with ⟨_, e⟩ | ⟨_, e⟩ <;> cases e.symm.trans h <;> simp
  | crc16 => rcases execCrc16_cases s with ⟨_, e⟩ | ⟨_, e⟩ <;> cases e.symm.trans h <;> simp
  | parse => rcases execParse_cases s with ⟨_, e⟩ | ⟨_, e⟩ <;> cases e.symm.trans h <;> simp
  | buildset => rcases execBuildset_cases s with ⟨_, _, e⟩ | ⟨_, e⟩ <;> cases e.symm.trans h <;> simp
  | _ => cases h; rfl

/-- Neither a command nor an iteration of the loop writes the parameter. -/
theorem advanceJob_lowercase {job : Job} {s t : State} (h : advanceJob job s = .next t) : t.lowercase = s.lowercase := by
  cases job with
  | operation w =>
    obtain ⟨i, -, -, hx⟩ | ⟨-, rfl⟩ := runCommand_cases h
    · exact exec_lowercase hx
    · exact s.refuse_lowercase .illegalCmd
  | frames =>
    obtain ⟨i, c, -, -, hx⟩ | ⟨r, -, rfl⟩ := runFrame_cases h
    · exact exec_lowercase (s := { s with crc := c }) hx
    · exact s.stopParse_lowercase r

/-- No host transaction writes the parameter. -/
theorem perform_lowercase {x : HostTxn} {s t : State} (h : perform x s = .next t) : t.lowercase = s.lowercase := by
  obtain ⟨w, -, hw⟩ | ⟨v, -, rfl⟩ | ⟨v, -, rfl⟩ | ⟨v, -, rfl⟩ | ⟨v, -, rfl⟩ | ⟨b, a, v, -, -, -, rfl⟩ |
    ⟨sp, a, -, rfl⟩ | rfl := perform_cases h
  · obtain ⟨i, -, -, rfl⟩ | ⟨c, rfl, -⟩ := acceptCommand_cases hw
    · exact s.start_lowercase w
    · exact s.refuse_lowercase c
  · exact s.clearStatus_lowercase v
  · rfl
  · rfl
  · rfl
  · exact s.memWrite_lowercase b a _
  · exact s.returnValue_lowercase _
  · rfl

/-- No step writes the parameter, a reset included (R9). -/
theorem step_lowercase {s t : State} (h : step s = .next t) : t.lowercase = s.lowercase := by
  obtain ⟨rest, -, rfl⟩ | ⟨x, u, ha, hx⟩ | ⟨job, u, ha, hx⟩ | ⟨_, _, _, -, -, -, rfl⟩ |
    ⟨-, -, ⟨_, -, rfl⟩ | ⟨-, rfl⟩⟩ := step_cases h
  · exact s.resetWith_lowercase rest
  · calc t.lowercase = u.lowercase := perform_lowercase hx
      _ = s.lowercase := by rw [ha.eq.1]
  · calc t.lowercase = u.lowercase := advanceJob_lowercase hx
      _ = s.lowercase := by rw [ha.eq]
  · rfl
  · rfl
  · rfl

/-- Settles O57: one lemma per encoding operation, the text by induction over its digit pairs, the step by cases. -/
theorem lowercaseParameterTouchesOnlyInput : Obligations.LowercaseParameterTouchesOnlyInput := by
  unfold Obligations.LowercaseParameterTouchesOnlyInput
  refine ⟨fun s t lc i hi h => ?_, decText_lowercase, fun s t h => step_lowercase h⟩
  obtain rfl | rfl | rfl := hi
  · exact execHexenc_with_lowercase lc h
  · exact execHexenc16_with_lowercase lc h
  · exact execBuildset_with_lowercase lc h

end Sys2Proof.Machine
end

section
/-! PROOFS. What the block keeps: what each instruction writes (O44, O45, O46, O56), the reset state and the invariant
(O1, O3, O4), how commands start and end (O11, O12), the sticky `ERR` (O43), DeviceState and the trace (O47, O48), held
transactions (O54), and the host's writes of the operands (O52). -/

namespace Sys2Proof.Machine

/-! ## What an instruction does, said once -/

/-- How the encoding operations end: a text in `TXBUF` from index 0, `CRC` and `OUTLEN` written, `Done` (R136, R137,
R203). -/
def State.produceText (s : State) (text : List Byte) (c : Word) (n : BitVec 12) : State :=
  ({ s.memWrite .txbuf 0 text with crc := c, outlen := n } : State).emitDone

/-- The fields a produced text writes; the others stay. -/
@[simp] theorem State.produceText_eq (s : State) (text : List Byte) (c : Word) (n : BitVec 12) :
    s.produceText text c n =
      { s with txbuf := s.txbuf.storeSeq 0 text, crc := c, outlen := n, phase := .idle,
               ptrace := s.ptrace ++ [.done] } := rfl

/-- The text `BUILDSET` builds for a setting and a value byte (R203). -/
def setText (f : Setting) (w : Byte) : List Byte := encBytes (setBody f w) ++ encBe16 (crcBytes (setBody f w))

/-- What an instruction whose operands are in range makes of a state; a refusal is no effect. -/
inductive Effect : Instr → State → State → Prop
  | nop {s : State} : Effect .nop s s.emitDone
  | hexdec {s : State} (hfit : s.textFits = true) : Effect .hexdec s s.decodeText.emitDone
  | hexenc {s : State} (hfit : s.bytesFit = true) :
      Effect .hexenc s (s.produceText (encBytes s.bytesOperand) s.crc (s.len <<< 1))
  | hexenc16 {s : State} : Effect .hexenc16 s (s.produceText (encBe16 s.val) s.crc 4)
  | crc16 {s : State} (hfit : s.textFits = true) :
      Effect .crc16 s ({ s with crc := crcText s.lowercase s.textOperand } : State).emitDone
  | parse {s : State} (hfit : s.textFits = true) : Effect .parse s s.clearParse.decodeText.enterLoop
  | buildset {s : State} {f : Setting} (hset : s.setting = some f) :
      Effect .buildset s (s.produceText (setText f (clampByte f s.signedVal))
        (crcBytes (setBody f (clampByte f s.signedVal))) 24)
  | dsclr {s : State} : Effect .dsclr s (s.setDs .unknown).emitDone
  | update {s : State} {i : Instr} {d : DeviceState} (hframe : i.isFrame = true) (hupd : frameUpdate i s.ds = some d) :
      Effect i s (s.acceptUpdate d i.lengthByte)
  | ignored {s : State} {i : Instr} (hframe : i.isFrame = true) (hupd : frameUpdate i s.ds = none) :
      Effect i s (s.acceptIgnored i.lengthByte)

/-- An instruction has its effect or is refused: the inversion of `exec`. -/
theorem exec_cases {i : Instr} {s t : State} (h : exec i s = .next t) :
    Effect i s t ∨ ∃ c, refusalOf i s = some c ∧ t = s.refuse c := by
  cases i with
  | hexdec =>
    obtain ⟨hfit, e⟩ | ⟨hfit, e⟩ := execHexdec_cases s <;> cases e.symm.trans h
    · exact .inl (.hexdec hfit)
    · exact .inr ⟨.lenRange, by simp [refusalOf, hfit], rfl⟩
  | hexenc =>
    obtain ⟨hfit, e⟩ | ⟨hfit, e⟩ := execHexenc_cases s <;> cases e.symm.trans h
    · exact .inl (.hexenc hfit)
    · exact .inr ⟨.lenRange, by simp [refusalOf, hfit], rfl⟩
  | crc16 =>
    obtain ⟨hfit, e⟩ | ⟨hfit, e⟩ := execCrc16_cases s <;> cases e.symm.trans h
    · exact .inl (.crc16 hfit)
    · exact .inr ⟨.lenRange, by simp [refusalOf, hfit], rfl⟩
  | parse =>
    obtain ⟨hfit, e⟩ | ⟨hfit, e⟩ := execParse_cases s <;> cases e.symm.trans h
    · exact .inl (.parse hfit)
    · exact .inr ⟨.lenRange, by simp [refusalOf, hfit], rfl⟩
  | buildset =>
    obtain ⟨f, hset, e⟩ | ⟨hset, e⟩ := execBuildset_cases s <;> cases e.symm.trans h
    · exact .inl (.buildset hset)
    · exact .inr ⟨.selRange, by simp [refusalOf, hset], rfl⟩
  | nop => cases h; exact .inl .nop
  | hexenc16 => cases h; exact .inl .hexenc16
  | dsclr => cases h; exact .inl .dsclr
  | status => cases h; exact .inl (.update rfl rfl)
  | setack => cases h; exact .inl (.update rfl rfl)
  | setcmd => cases h; exact .inl (.ignored rfl rfl)
  | other => cases h; exact .inl (.ignored rfl rfl)

/-- `exec` answers next for every instruction (R230). -/
theorem exec_answers (i : Instr) (s : State) : ∃ t, exec i s = .next t := by
  cases i with
  | hexdec => exact (execHexdec_cases s).elim (fun h => ⟨_, h.2⟩) fun h => ⟨_, h.2⟩
  | hexenc => exact (execHexenc_cases s).elim (fun h => ⟨_, h.2⟩) fun h => ⟨_, h.2⟩
  | crc16 => exact (execCrc16_cases s).elim (fun h => ⟨_, h.2⟩) fun h => ⟨_, h.2⟩
  | parse => exact (execParse_cases s).elim (fun h => ⟨_, h.2⟩) fun h => ⟨_, h.2⟩
  | buildset => exact (execBuildset_cases s).elim (fun ⟨_, _, h⟩ => ⟨_, h⟩) fun h => ⟨_, h.2⟩
  | _ => exact ⟨_, rfl⟩

/-- A frame is never refused (R231). -/
theorem refusalOf_frame {i : Instr} (hf : i.isFrame = true) (s : State) : refusalOf i s = none := by
  cases i <;> first | rfl | cases hf

/-- What has an effect is not refused. -/
theorem Effect.notRefused {i : Instr} {s t : State} (h : Effect i s t) : refusalOf i s = none := by
  cases h with
  | hexdec hfit => exact if_pos hfit
  | hexenc hfit => exact if_pos hfit
  | crc16 hfit => exact if_pos hfit
  | parse hfit => exact if_pos hfit
  | buildset hset => simp [refusalOf, hset]
  | update hframe => exact refusalOf_frame hframe s
  | ignored hframe => exact refusalOf_frame hframe s
  | _ => rfl

/-- `exec` answers the effect of what is not refused. -/
theorem Effect.exec_eq {i : Instr} {s t : State} (h : Effect i s t) : exec i s = .next t := by
  cases h with
  | hexdec hfit => exact if_pos hfit
  | hexenc hfit => exact if_pos hfit
  | crc16 hfit => exact if_pos hfit
  | parse hfit => exact if_pos hfit
  | buildset hset => simp only [exec, execBuildset, hset]; rfl
  | update hframe hupd => rw [exec_frame hframe, hupd]
  | ignored hframe hupd => rw [exec_frame hframe, hupd]
  | _ => rfl

/-- `exec` answers the refusal of what is refused (R232). -/
theorem exec_refused {i : Instr} {s : State} {c : RefuseCode} (h : refusalOf i s = some c) :
    exec i s = .next (s.refuse c) := by
  obtain ⟨t, ht⟩ : ∃ t, exec i s = .next t := exec_answers i s
  obtain heff | ⟨c', hc, rfl⟩ := exec_cases ht
  · cases heff.notRefused.symm.trans h
  · cases hc.symm.trans h; exact ht

/-! ## What an effect leaves alone -/

/-- A text produced in `TXBUF` is seen below its length only. -/
theorem State.produceText_peek_txbuf {s : State} {text : List Byte} {c : Word} {n : BitVec 12} {a : Nat}
    (h : (s.produceText text c n).peek .txbuf a ≠ s.peek .txbuf a) : a < text.length := by
  by_contra ha
  exact h (s.peek_memWrite_outside .txbuf .txbuf 0 a text (by omega))

theorem setText_length (f : Setting) (w : Byte) : (setText f w).length = 24 := rfl

section
variable {i : Instr} {s t : State}

theorem Effect.operands_kept (h : Effect i s t) :
    t.len = s.len ∧ t.val = s.val ∧ t.sel = s.sel ∧ t.rxbuf = s.rxbuf := by
  cases h <;> simp

theorem Effect.outside_kept (h : Effect i s t) :
    t.held = s.held ∧ t.inputs = s.inputs ∧ t.epoch = s.epoch ∧ t.lowercase = s.lowercase := by
  cases h <;> simp

theorem Effect.status_kept (h : Effect i s t) : t.status = s.status := by
  cases h <;> simp

/-- `SCR` is written by the decoding of a text only, below `LEN >> 1` (R135, R168). -/
theorem Effect.scr_written (h : Effect i s t) (a : Nat) (hne : t.peek .scr a ≠ s.peek .scr a) :
    (i = .hexdec ∨ i = .parse) ∧ a < s.len.toNat / 2 := by
  cases h with
  | hexdec => exact ⟨.inl rfl, not_le.mp fun ha => hne (s.decodeText_peek_above a ha)⟩
  | parse => exact ⟨.inr rfl, not_le.mp fun ha => hne (s.clearParse.decodeText_peek_above a ha)⟩
  | _ => simp [State.peek, State.buffer] at hne

/-- `TXBUF` is written by the three encoding operations only, below the length of their text (R136, R137, R203). -/
theorem Effect.txbuf_written (h : Effect i s t) (a : Nat) (hne : t.peek .txbuf a ≠ s.peek .txbuf a) :
    (i = .hexenc ∧ a < 2 * s.len.toNat) ∨ (i = .hexenc16 ∧ a < 4) ∨ (i = .buildset ∧ a < 24) := by
  cases h with
  | hexenc =>
    have ha := State.produceText_peek_txbuf hne
    rw [encBytes_length, State.bytesOperand, State.memRead_length] at ha
    exact .inl ⟨rfl, ha⟩
  | hexenc16 => exact .inr (.inl ⟨rfl, State.produceText_peek_txbuf hne⟩)
  | buildset => exact .inr (.inr ⟨rfl, State.produceText_peek_txbuf hne⟩)
  | _ => simp [State.peek, State.buffer] at hne

theorem Effect.crc_written (h : Effect i s t) (hne : t.crc ≠ s.crc) : i = .crc16 ∨ i = .parse ∨ i = .buildset := by
  cases h with
  | crc16 => exact .inl rfl
  | parse => exact .inr (.inl rfl)
  | buildset => exact .inr (.inr rfl)
  | _ => simp at hne

theorem Effect.outlen_written (h : Effect i s t) (hne : t.outlen ≠ s.outlen) :
    i = .hexdec ∨ i = .hexenc ∨ i = .hexenc16 ∨ i = .parse ∨ i = .buildset := by
  cases h with
  | hexdec => simp
  | hexenc => simp
  | hexenc16 => simp
  | parse => simp
  | buildset => simp
  | _ => simp at hne

theorem Effect.stopwhy_written (h : Effect i s t) (hne : t.stopwhy ≠ s.stopwhy) : i = .parse := by
  cases h with
  | parse => rfl
  | _ => simp at hne

theorem Effect.counters_written (h : Effect i s t)
    (hne : t.frames ≠ s.frames ∨ t.notifs ≠ s.notifs ∨ t.ignored ≠ s.ignored ∨ t.hcur ≠ s.hcur ∨ t.bcur ≠ s.bcur) :
    i = .parse ∨ i.isFrame = true := by
  cases h with
  | parse => exact .inl rfl
  | update hframe => exact .inr hframe
  | ignored hframe => exact .inr hframe
  | _ => simp at hne

/-- The frames with an update are those of the rows `STATUS` and `SETACK` (R179, R180). -/
theorem mnemonic_of_frameUpdate {d d' : DeviceState} (h : frameUpdate i d = some d') :
    i.mnemonic = "STATUS" ∨ i.mnemonic = "SETACK" := by
  cases i with
  | status => exact .inl rfl
  | setack => exact .inr rfl
  | _ => cases h

theorem Effect.ds_written (h : Effect i s t) (hne : t.ds ≠ s.ds) :
    i = .dsclr ∨ i.mnemonic = "STATUS" ∨ i.mnemonic = "SETACK" := by
  cases h with
  | dsclr => exact .inl rfl
  | update _ hupd => exact .inr (mnemonic_of_frameUpdate hupd)
  | _ => simp at hne

theorem Effect.ntrace_written (h : Effect i s t) (hne : t.ntrace ≠ s.ntrace) :
    i.mnemonic = "STATUS" ∨ i.mnemonic = "SETACK" := by
  cases h with
  | update _ hupd => exact mnemonic_of_frameUpdate hupd
  | _ => simp at hne

end

/-- Settles O45: neither an effect nor a refusal writes these fields. -/
theorem operandsAndTextAreNeverWritten : Obligations.OperandsAndTextAreNeverWritten := by
  unfold Obligations.OperandsAndTextAreNeverWritten
  intro i s t h
  obtain heff | ⟨c, -, rfl⟩ := exec_cases h
  · obtain ⟨hlen, hval, hsel, hrx⟩ := heff.operands_kept
    exact ⟨hlen, hval, hsel, hrx, heff.outside_kept⟩
  · exact ⟨rfl, rfl, rfl, rfl, rfl, rfl, rfl, rfl⟩

/-- Settles O46: an effect writes its row, one lemma per register; a refusal writes `STATUS`, phase and events. -/
theorem instructionsWriteOnlyTheirRow : Obligations.InstructionsWriteOnlyTheirRow := by
  unfold Obligations.InstructionsWriteOnlyTheirRow
  intro i s t h
  obtain heff | ⟨c, hc, rfl⟩ := exec_cases h
  · obtain ⟨hlen, hval, hsel, hrx⟩ := heff.operands_kept
    obtain ⟨-, -, hepoch, -⟩ := heff.outside_kept
    exact ⟨fun hne => absurd heff.status_kept hne,
      ⟨hlen, hval, hsel, State.peek_congr hrx hepoch⟩,
      heff.scr_written, heff.txbuf_written, heff.crc_written, heff.outlen_written, heff.stopwhy_written,
      heff.counters_written, heff.ds_written, heff.ntrace_written, fun hne => absurd heff.notRefused hne⟩
  · have hsome : refusalOf i s ≠ none := by simp [hc]
    exact ⟨fun _ => hsome, ⟨rfl, rfl, rfl, fun _ => rfl⟩, fun _ hne => absurd rfl hne, fun _ hne => absurd rfl hne,
      fun hne => absurd rfl hne, fun hne => absurd rfl hne, fun hne => absurd rfl hne, by simp,
      fun hne => absurd rfl hne, fun hne => absurd rfl hne, fun _ => rfl⟩

/-! ## What an effect does not depend on -/

theorem State.memRead_with_status (s : State) (x : BitVec 4) (b : Buffer) (a n : Nat) :
    ({ s with status := x } : State).memRead b a n = s.memRead b a n :=
  State.memRead_congr fun _ _ => by cases b <;> rfl

theorem State.decodeText_with_status (s : State) (x : BitVec 4) :
    ({ s with status := x } : State).decodeText = { s.decodeText with status := x } := by
  simp only [State.decodeText, s.memRead_with_status x]
  rfl

theorem State.produceText_with_status (s : State) (x : BitVec 4) (text : List Byte) (c : Word) (n : BitVec 12) :
    ({ s with status := x } : State).produceText text c n = { s.produceText text c n with status := x } := rfl

theorem refusalOf_with_status (i : Instr) (s : State) (x : BitVec 4) :
    refusalOf i { s with status := x } = refusalOf i s := by
  cases i <;> rfl

/-- An effect does not depend on `STATUS` (R234). -/
theorem Effect.with_status {i : Instr} {s t : State} (h : Effect i s t) (x : BitVec 4) :
    Effect i { s with status := x } { t with status := x } := by
  cases h with
  | nop => exact .nop
  | hexdec hfit =>
    have he := Effect.hexdec (s := { s with status := x }) hfit
    rwa [s.decodeText_with_status x] at he
  | hexenc hfit =>
    have he := Effect.hexenc (s := { s with status := x }) hfit
    rwa [show State.bytesOperand { s with status := x } = s.bytesOperand from s.memRead_with_status x .scr 0 _] at he
  | hexenc16 => exact .hexenc16
  | crc16 hfit =>
    have he := Effect.crc16 (s := { s with status := x }) hfit
    rwa [show State.textOperand { s with status := x } = s.textOperand from s.memRead_with_status x .rxbuf 0 _] at he
  | parse hfit =>
    have he := Effect.parse (s := { s with status := x }) hfit
    rwa [show State.clearParse { s with status := x } = { s.clearParse with status := x } from rfl,
      s.clearParse.decodeText_with_status x] at he
  | buildset hset =>
    have he := Effect.buildset (s := { s with status := x }) hset
    rwa [show State.signedVal { s with status := x } = s.signedVal from rfl, s.produceText_with_status x] at he
  | dsclr => exact .dsclr
  | update hframe hupd => exact .update hframe hupd
  | ignored hframe hupd => exact .ignored hframe hupd

/-- Settles O44: the same effect or the same refusal, whatever `STATUS` was. -/
theorem errBlocksNothing : Obligations.ErrBlocksNothing := by
  unfold Obligations.ErrBlocksNothing
  intro i s t x h
  obtain heff | ⟨c, hc, rfl⟩ := exec_cases h
  · rw [(heff.with_status x).exec_eq, if_pos heff.notRefused]
  · rw [exec_refused ((refusalOf_with_status i s x).trans hc), if_neg (by simp [hc])]
    rfl

/-- The decoding of a text reads `RXBUF` below `LEN` only (R277). -/
theorem State.decodeText_with_rxbuf {s : State} {m : Memory}
    (hm : ∀ a, a < s.len.toNat → ({ s with rxbuf := m } : State).peek .rxbuf a = s.peek .rxbuf a) :
    ({ s with rxbuf := m } : State).decodeText = { s.decodeText with rxbuf := m } := by
  have hread : ({ s with rxbuf := m } : State).memRead .rxbuf 0 s.len.toNat = s.memRead .rxbuf 0 s.len.toNat :=
    State.memRead_congr fun a ha => by rw [Nat.zero_add]; exact hm a ha
  simp only [State.decodeText, hread]
  rfl

/-- An effect on a text reads `RXBUF` below `LEN` only (R277). -/
theorem Effect.with_rxbuf {i : Instr} {s t : State} {m : Memory} (h : Effect i s t)
    (hi : i = .hexdec ∨ i = .crc16 ∨ i = .parse)
    (hm : ∀ a, a < s.len.toNat → ({ s with rxbuf := m } : State).peek .rxbuf a = s.peek .rxbuf a) :
    Effect i { s with rxbuf := m } { t with rxbuf := m } := by
  cases h with
  | hexdec hfit =>
    have he := Effect.hexdec (s := { s with rxbuf := m }) hfit
    rwa [State.decodeText_with_rxbuf hm] at he
  | crc16 hfit =>
    have hread : State.textOperand { s with rxbuf := m } = s.textOperand :=
      State.memRead_congr fun a ha => by rw [Nat.zero_add]; exact hm a ha
    have he := Effect.crc16 (s := { s with rxbuf := m }) hfit
    rwa [hread] at he
  | parse hfit =>
    have he := Effect.parse (s := { s with rxbuf := m }) hfit
    rwa [show State.clearParse { s with rxbuf := m } = { s.clearParse with rxbuf := m } from rfl,
      State.decodeText_with_rxbuf (s := s.clearParse) hm] at he
  | update hframe => obtain rfl | rfl | rfl := hi <;> cases hframe
  | ignored hframe => obtain rfl | rfl | rfl := hi <;> cases hframe
  | _ => simp at hi

/-- Settles O56: the operand is the same text, so the effect is the same, or the refusal. -/
theorem textAboveLenIsNeverRead : Obligations.TextAboveLenIsNeverRead := by
  unfold Obligations.TextAboveLenIsNeverRead
  intro s t m i hi hm h
  obtain heff | ⟨c, hc, rfl⟩ := exec_cases h
  · exact (heff.with_rxbuf hi hm).exec_eq
  · have hc' : refusalOf i { s with rxbuf := m } = some c := by obtain rfl | rfl | rfl := hi <;> exact hc
    exact exec_refused hc'

/-! ## The reset state -/

/-- Settles O1: each value stands in `State.reset`, and no location of its buffers is written. -/
theorem resetGivesTheStatedValues : Obligations.ResetGivesTheStatedValues := by
  unfold Obligations.ResetGivesTheStatedValues
  refine ⟨⟨rfl, rfl, rfl, rfl, rfl, rfl, rfl, rfl, rfl, rfl, rfl, rfl⟩, rfl, rfl, rfl, rfl, rfl, fun b a => ?_⟩
  cases b <;> rfl

/-- Settles O3: the registers are 0, the buffers and traces empty, and nothing runs. -/
theorem resetStateIsGood : Obligations.ResetStateIsGood where
  rxbufWf := rfl
  scrWf := rfl
  txbufWf := rfl
  statusLegal := .inl rfl
  stopLegal := by decide
  counters := rfl
  fiveBytes := by decide
  lockStep := rfl
  cursorCap := by decide
  outlenCap := by decide
  traceCount := rfl
  notifsTraced := by decide
  accepted := nofun
  inLoop := nofun

/-- An abandoned transaction shows no notification (R260). -/
theorem count_notify_abandoned (n : Nat) (x : Option HostTxn) : (abandoned n x).count .notify = 0 := by
  obtain _ | ⟨_ | _⟩ := x <;> rfl

/-- A later reset gives the invariant as the first one does. -/
theorem inv_resetWith (s : State) (rest : List Input) : Inv (s.resetWith rest) :=
  { resetStateIsGood with
    traceCount := (count_notify_abandoned _ _).symm
    accepted := nofun
    inLoop := nofun }

/-! ## The two views of the text in a running `PARSE` -/

section
variable {s : State}

/-- A text whose decoded bytes stand in `SCR`, decoded from any byte on (R61). -/
theorem decText_memRead {b n : Nat} (h : ∀ i, i < b + n →
      s.peek .scr i = hexbyte s.lowercase (s.peek .rxbuf (2 * i)) (s.peek .rxbuf (2 * i + 1))) :
    decText s.lowercase (s.memRead .rxbuf (2 * b) (2 * n)) = s.memRead .scr b n := by
  induction n generalizing b with
  | zero => rfl
  | succ n ih =>
    have hrest := ih (b := b + 1) fun i hi => h i (by omega)
    rw [show 2 * (n + 1) = 2 * n + 1 + 1 by omega]
    simp only [State.memRead, decText, h b (by omega)]
    rw [← hrest, show 2 * (b + 1) = 2 * b + 1 + 1 from rfl]

/-- The checksum over the text is the checksum over the bytes (R74). -/
theorem Running.textCrc (h : Running s) (hlock : s.hcur.toNat = 2 * s.bcur.toNat) {n : Nat}
    (hn : s.bcur.toNat + n ≤ s.nbytes) : s.textCrc n = crcBytes (s.memRead .scr s.bcur.toNat n) := by
  unfold State.textCrc crcText
  rw [hlock, decText_memRead fun i hi => h.decoded i (by omega)]

end

/-! ## A validated frame -/

/-- With `L` below 2 the received checksum would overlap the header, whose checksums differ from what stands there
(R175). -/
theorem two_le_of_checksum {l : Byte} {bytes rest : List Byte}
    (hb : bytes = Config.magic0 :: Config.magic1 :: l :: rest)
    (hc : crcBytes (bytes.take (l.toNat + 1)) = be16 (bytes.getD (l.toNat + 1) 0) (bytes.getD (l.toNat + 2) 0)) :
    2 ≤ l.toNat := by
  have hzero : crcBytes [Config.magic0] ≠ be16 Config.magic1 0 := by decide
  have hone : ∀ x, crcBytes [Config.magic0, Config.magic1] ≠ be16 1 x := by decide
  by_contra hl
  obtain h0 | h1 : l.toNat = 0 ∨ l.toNat = 1 := by omega
  · obtain rfl : l = 0 := BitVec.eq_of_toNat_eq h0
    subst hb
    exact hzero hc
  · obtain rfl : l = 1 := BitVec.eq_of_toNat_eq h1
    subst hb
    exact hone _ hc

/-- A frame the checks accept in a good running `PARSE` has at least 5 bytes and lies inside the text (R172, R175). -/
theorem Running.examine_fits {s : State} (h : Running s) (hlock : s.hcur.toNat = 2 * s.bcur.toNat) {i : Instr}
    {c : Word} (he : s.examine = .ok (i, c)) : 2 ≤ i.lengthByte ∧ s.bcur.toNat + (3 + i.lengthByte) ≤ s.nbytes := by
  obtain ⟨l, rest, hbytes, -, hrest, hc, hreceived, rfl⟩ := decodeFrameWith_eq_ok he
  have hlen : s.nbytes - s.bcur.toNat = rest.length + 3 := by
    have := congrArg List.length hbytes
    simpa [State.remainingBytes] using this
  have htake : s.remainingBytes.take (l.toNat + 1) = s.memRead .scr s.bcur.toNat (l.toNat + 1) := by
    rw [State.remainingBytes, State.memRead_take, Nat.min_eq_left (by omega)]
  have hl : 2 ≤ l.toNat := by
    refine two_le_of_checksum hbytes ?_
    rw [htake, ← h.textCrc hlock (by omega), ← hc, hreceived]
  have hL : (classify ((s.remainingBytes.take (l.toNat + 1)).drop 3)).lengthByte = l.toNat := by
    rw [(classify_body _).2, htake, List.length_drop, State.memRead_length]
    omega
  omega

/-- A number that stays within the width of a register is added without wrapping. -/
theorem toNat_add_ofNat {w : Nat} {x : BitVec w} {n : Nat} (h : x.toNat + n < 2 ^ w) :
    (x + BitVec.ofNat w n).toNat = x.toNat + n := by
  rw [BitVec.toNat_add, BitVec.toNat_ofNat, Nat.add_mod_mod, Nat.mod_eq_of_lt h]

/-! ## The invariant, operation by operation -/

section
variable {s : State}

theorem stopNumber_le (r : StopReason) : (stopNumber r).toNat ≤ 4 := by
  cases r <;> exact Nat.le_of_ble_eq_true rfl

/-- The operand checks do not see the phase nor the outside. -/
theorem refusalOf_outside (i : Instr) (s : State) (p : Phase) (x : Option HostTxn) (ins : List Input) :
    refusalOf i { s with phase := p, held := x, inputs := ins } = refusalOf i s := by
  cases i <;> rfl

/-- What waits outside has no part in the invariant. -/
theorem Inv.outside (h : Inv s) (x : Option HostTxn) (ins : List Input) : Inv { s with held := x, inputs := ins } :=
  { h with
    accepted := fun w hw => by
      obtain ⟨i, hd, hr⟩ := h.accepted w hw
      exact ⟨i, hd, (refusalOf_outside i s s.phase x ins).trans hr⟩
    inLoop := fun hp => { h.inLoop hp with decoded := (h.inLoop hp).decoded } }

/-- An accepted command word keeps the invariant, since it decodes and its operands are in range (R215). -/
theorem Inv.start (h : Inv s) {w : Word} {i : Instr} (hd : decodeCommand w = .ok i) (hr : refusalOf i s = none) :
    Inv (s.start w) :=
  { h with
    accepted := fun w' hw => by
      cases hw
      exact ⟨i, hd, (refusalOf_outside i s _ s.held s.inputs).trans hr⟩
    inLoop := nofun }

/-- The end of an operation adds no notification. -/
theorem Inv.emitDone (h : Inv s) : Inv s.emitDone :=
  { h with
    traceCount := by simpa using h.traceCount
    accepted := nofun
    inLoop := nofun }

theorem Inv.refuse (h : Inv s) (c : RefuseCode) : Inv (s.refuse c) :=
  { h.emitDone with
    statusLegal := .inr ⟨c, rfl⟩
    accepted := nofun
    inLoop := nofun }

theorem Inv.stopParse (h : Inv s) (r : StopReason) : Inv (s.stopParse r) :=
  { h.emitDone with
    stopLegal := stopNumber_le r
    accepted := nofun
    inLoop := nofun }

/-- A checksum is free. -/
theorem Inv.withCrc (h : Inv s) (c : Word) : Inv { s with crc := c } :=
  { h with
    accepted := fun w hw => by
      obtain ⟨i, hd, hr⟩ := h.accepted w hw
      exact ⟨i, hd, by cases i <;> exact hr⟩
    inLoop := fun hp => { h.inLoop hp with decoded := (h.inLoop hp).decoded } }

/-- A text of legal length in `TXBUF`, and a legal `OUTLEN`. -/
theorem Inv.produceText (h : Inv s) {text : List Byte} (c : Word) {n : BitVec 12}
    (htext : text.length ≤ Config.txCap) (hn : n.toNat ≤ Config.txCap) : Inv (s.produceText text c n) :=
  { h.emitDone with
    txbufWf := Memory.storeSeq_wf h.txbufWf (by omega)
    outlenCap := hn
    accepted := nofun
    inLoop := nofun }

theorem State.textFits_iff : s.textFits = true ↔ s.len.toNat ≤ Config.rxCap := decide_eq_true_iff

theorem State.bytesFit_iff : s.bytesFit = true ↔ s.len.toNat ≤ Config.scrCap := decide_eq_true_iff

theorem State.decodeText_outlen_toNat (s : State) : s.decodeText.outlen.toNat = s.nbytes :=
  (BitVec.toNat_ushiftRight s.len 1).trans (Nat.shiftRight_one _)

/-- A text within capacity decodes to at most half as many bytes, which `SCR` and `OUTLEN` hold (R66). -/
theorem nbytes_le (hfit : s.len.toNat ≤ Config.rxCap) : s.nbytes ≤ Config.scrCap := by
  simp only [State.nbytes, State.count, Config.rxCap, Config.scrCap] at *
  omega

theorem State.decodeText_scr_wf (hwf : s.scr.wf Config.scrCap = true) (hfit : s.len.toNat ≤ Config.rxCap) :
    s.decodeText.scr.wf Config.scrCap = true := by
  refine Memory.storeSeq_wf hwf ?_
  rw [decText_length, State.memRead_length, Nat.zero_add]
  exact nbytes_le hfit

/-- A text within capacity, decoded at the end of an operation (R135). -/
theorem Inv.decodeText (h : Inv s) (hfit : s.len.toNat ≤ Config.rxCap) : Inv s.decodeText.emitDone :=
  { h.emitDone with
    scrWf := State.decodeText_scr_wf h.scrWf hfit
    outlenCap := s.decodeText_outlen_toNat.trans_le ((nbytes_le hfit).trans (by decide))
    accepted := nofun
    inLoop := nofun }

/-- `PARSE` starts its loop with the cursors at 0 and the decoded text in `SCR` (R167, R168). -/
theorem Inv.parse (h : Inv s) (hfit : s.len.toNat ≤ Config.rxCap) : Inv s.clearParse.decodeText.enterLoop where
  rxbufWf := h.rxbufWf
  scrWf := State.decodeText_scr_wf (s := s.clearParse) h.scrWf hfit
  txbufWf := h.txbufWf
  statusLegal := h.statusLegal
  stopLegal := Nat.zero_le 4
  counters := rfl
  fiveBytes := Nat.le_refl 0
  lockStep := rfl
  cursorCap := Nat.zero_le _
  outlenCap := s.decodeText_outlen_toNat.trans_le ((nbytes_le hfit).trans (by decide))
  traceCount := h.traceCount
  notifsTraced := Nat.zero_le _
  accepted := nofun
  inLoop _ :=
    { lenFits := hfit
      cursorFits := Nat.zero_le _
      outlenIs := s.decodeText_outlen_toNat
      stopZero := rfl
      decoded := s.clearParse.decodeText_peek }

/-- No counter and no cursor wraps when a frame inside the text is passed over: at most 204 frames of at least 5 bytes
fit (R33, R34). -/
theorem Inv.frame_counts (h : Inv s) (hrun : Running s) {l : Nat} (hl : 2 ≤ l)
    (hfits : s.bcur.toNat + (3 + l) ≤ s.nbytes) :
    (s.frames + 1).toNat = s.frames.toNat + 1 ∧
    (s.hcur + BitVec.ofNat 12 (2 * (3 + l))).toNat = s.hcur.toNat + 2 * (3 + l) ∧
    (s.bcur + BitVec.ofNat 11 (3 + l)).toNat = s.bcur.toNat + (3 + l) := by
  have hcap := nbytes_le hrun.lenFits
  have hfive := h.fiveBytes
  have hlock := h.lockStep
  simp only [Config.scrCap] at hcap
  exact ⟨toNat_add_ofNat (n := 1) (by omega), toNat_add_ofNat (by omega), toNat_add_ofNat (by omega)⟩

/-- A validated frame keeps the invariant, whichever of the two counters it counts in and whatever it makes of
DeviceState, as long as the traces show its notification (R174, R182, R183). -/
theorem Inv.passFrame (h : Inv s) (hp : s.phase = .running .frames) {l : Nat} (hl : 2 ≤ l)
    (hfits : s.bcur.toNat + (3 + l) ≤ s.nbytes) {n g : BitVec 8} (d : DeviceState) {tr : List DeviceState}
    {pt : List PortEvent} (hcount : n.toNat + g.toNat = s.notifs.toNat + s.ignored.toNat + 1)
    (htrace : tr.length = pt.count .notify) (hnotifs : n.toNat ≤ tr.length) :
    Inv { s.countFrame.advance l with notifs := n, ignored := g, ds := d, ntrace := tr, ptrace := pt } := by
  have hrun := h.inLoop hp
  obtain ⟨hframes, hhcur, hbcur⟩ := h.frame_counts hrun hl hfits
  exact
  { h with
    counters := by
      calc (s.frames + 1).toNat = s.notifs.toNat + s.ignored.toNat + 1 := hframes.trans (by rw [h.counters])
        _ = n.toNat + g.toNat := hcount.symm
    fiveBytes := by
      have hfive := h.fiveBytes
      rw [State.advance_frames, State.countFrame_frames, State.advance_bcur, State.countFrame_bcur]
      omega
    lockStep := by
      have hlock := h.lockStep
      rw [State.advance_hcur, State.countFrame_hcur, State.advance_bcur, State.countFrame_bcur]
      omega
    cursorCap := hbcur.trans_le (hfits.trans (nbytes_le hrun.lenFits))
    traceCount := htrace
    notifsTraced := hnotifs
    accepted := fun w hw => nomatch hp.symm.trans hw
    inLoop := fun _ =>
      { hrun with
        cursorFits := hbcur.trans_le hfits
        decoded := hrun.decoded } }

/-- A validated frame that updates DeviceState keeps the invariant (R183). -/
theorem Inv.acceptUpdate (h : Inv s) (hp : s.phase = .running .frames) (d : DeviceState) {l : Nat} (hl : 2 ≤ l)
    (hfits : s.bcur.toNat + (3 + l) ≤ s.nbytes) : Inv (s.acceptUpdate d l) := by
  have hnotifs : (s.notifs + 1).toNat = s.notifs.toNat + 1 := by
    obtain ⟨hframes, -, -⟩ := h.frame_counts (h.inLoop hp) hl hfits
    have hcounters := h.counters
    exact toNat_add_ofNat (n := 1) (by omega)
  refine h.passFrame hp hl hfits d ?_ ?_ ?_
  · rw [State.emitNotify_notifs, State.setDs_notifs, State.countFrame_notifs, hnotifs]
    exact Nat.add_right_comm _ 1 _
  · simpa using h.traceCount
  · rw [State.emitNotify_ntrace, State.emitNotify_notifs, List.length_append]
    exact hnotifs.trans_le (Nat.add_le_add_right h.notifsTraced 1)

/-- A validated frame that is ignored keeps the invariant (R182). -/
theorem Inv.acceptIgnored (h : Inv s) (hp : s.phase = .running .frames) {l : Nat} (hl : 2 ≤ l)
    (hfits : s.bcur.toNat + (3 + l) ≤ s.nbytes) : Inv (s.acceptIgnored l) := by
  have hignored : (s.ignored + 1).toNat = s.ignored.toNat + 1 := by
    obtain ⟨hframes, -, -⟩ := h.frame_counts (h.inLoop hp) hl hfits
    have hcounters := h.counters
    exact toNat_add_ofNat (n := 1) (by omega)
  exact h.passFrame hp hl hfits s.ds (congrArg (s.notifs.toNat + ·) hignored) h.traceCount h.notifsTraced

end

/-! ## The invariant, step by step -/

section
variable {s t : State}

/-- An operation keeps the invariant: what it writes is within range because its operands are (R216). -/
theorem Inv.operation (h : Inv s) {i : Instr} (hf : i.isFrame = false) (hx : exec i s = .next t) : Inv t := by
  obtain heff | ⟨c, -, rfl⟩ := exec_cases hx
  · cases heff with
    | nop => exact h.emitDone
    | hexdec hfit => exact h.decodeText (State.textFits_iff.mp hfit)
    | hexenc hfit =>
      have hlen := State.bytesFit_iff.mp hfit
      simp only [Config.scrCap] at hlen
      refine h.produceText s.crc ?_ ?_
      · rw [encBytes_length, State.bytesOperand, State.memRead_length, State.count]
        simp only [Config.txCap]
        omega
      · rw [BitVec.toNat_shiftLeft, Nat.shiftLeft_eq]
        simp only [Config.txCap]
        omega
    | hexenc16 => exact h.produceText s.crc (by rw [encBe16_length]; decide) (by decide)
    | crc16 hfit => exact (h.withCrc _).emitDone
    | parse hfit => exact h.parse (State.textFits_iff.mp hfit)
    | buildset hset => exact h.produceText _ (by rw [setText_length]; decide) (by decide)
    | dsclr => exact { h.emitDone with accepted := nofun, inLoop := nofun }
    | update hframe => cases hf.symm.trans hframe
    | ignored hframe => cases hf.symm.trans hframe
  · exact h.refuse c

/-- A frame the checks accept keeps the invariant. -/
theorem Inv.frame (h : Inv s) (hp : s.phase = .running .frames) {i : Instr} {c : Word} (he : s.examine = .ok (i, c))
    (hx : exec i { s with crc := c } = .next t) : Inv t := by
  obtain ⟨hl, hfits⟩ := (h.inLoop hp).examine_fits h.lockStep he
  rw [exec_frame (examine_isFrame he).1] at hx
  split at hx <;> cases hx
  · exact (h.withCrc c).acceptUpdate hp _ hl hfits
  · exact (h.withCrc c).acceptIgnored hp hl hfits

theorem Inv.advanceJob (h : Inv s) {job : Job} (hp : s.phase = .running job) (hx : advanceJob job s = .next t) :
    Inv t := by
  cases job with
  | operation w =>
    obtain ⟨i, -, hf, hx⟩ | ⟨-, rfl⟩ := runCommand_cases hx
    · exact h.operation hf hx
    · exact h.refuse .illegalCmd
  | frames =>
    obtain ⟨i, c, he, -, hx⟩ | ⟨r, -, rfl⟩ := runFrame_cases hx
    · exact h.frame hp he hx
    · exact h.stopParse r

/-- What host writes can store in an idle block: operands, a cleared status, bytes of `RXBUF` and `SCR` (R21, R67). -/
theorem Inv.hostWrite (h : Inv s) (hp : s.phase = .idle) {x : BitVec 4} (hx : x = 0 ∨ ∃ c, x = statusOfRefusal c)
    (len : BitVec 12) (val : Word) (sel : BitVec 3) {rx sc : Memory} (hrx : rx.wf Config.rxCap = true)
    (hsc : sc.wf Config.scrCap = true) :
    Inv { s with status := x, len := len, val := val, sel := sel, rxbuf := rx, scr := sc } :=
  { h with
    rxbufWf := hrx
    scrWf := hsc
    statusLegal := hx
    accepted := fun _ hw => nomatch hp.symm.trans hw
    inLoop := fun hr => nomatch hp.symm.trans hr }

/-- A returned value is no notification. -/
theorem Inv.returnValue (h : Inv s) (hp : s.phase = .idle) (v : Word) : Inv (s.returnValue v) :=
  { h with
    traceCount := by simpa using h.traceCount
    accepted := fun _ hw => nomatch hp.symm.trans hw
    inLoop := fun hr => nomatch hp.symm.trans hr }

theorem Inv.perform (h : Inv s) (hp : s.phase = .idle) {x : HostTxn} (hx : perform x s = .next t) : Inv t := by
  have hwrite := fun (len : BitVec 12) (val : Word) (sel : BitVec 3) =>
    h.hostWrite hp h.statusLegal len val sel h.rxbufWf h.scrWf
  obtain ⟨w, -, hw⟩ | ⟨v, -, rfl⟩ | ⟨v, -, rfl⟩ | ⟨v, -, rfl⟩ | ⟨v, -, rfl⟩ | ⟨b, a, v, -, hb, ha, rfl⟩ |
    ⟨sp, a, -, rfl⟩ | rfl := perform_cases hx
  · obtain ⟨i, hd, hr, rfl⟩ | ⟨c, rfl, -⟩ := acceptCommand_cases hw
    · exact h.start hd hr
    · exact h.refuse c
  · unfold State.clearStatus
    split
    · exact h.hostWrite hp (.inl rfl) s.len s.val s.sel h.rxbufWf h.scrWf
    · exact h
  · exact hwrite _ s.val s.sel
  · exact hwrite s.len v s.sel
  · exact hwrite s.len s.val _
  · cases b with
    | rxbuf => exact h.hostWrite hp h.statusLegal s.len s.val s.sel (Memory.store_wf _ h.rxbufWf ha) h.scrWf
    | scr => exact h.hostWrite hp h.statusLegal s.len s.val s.sel h.rxbufWf (Memory.store_wf _ h.scrWf ha)
    | txbuf => exact absurd rfl hb
  · exact h.returnValue hp _
  · exact h

end

/-- Settles O4: each kind of step keeps the invariant. -/
theorem everyStepKeepsTheInvariant : Obligations.EveryStepKeepsTheInvariant := by
  unfold Obligations.EveryStepKeepsTheInvariant
  intro s t h hstep
  obtain ⟨rest, -, rfl⟩ | ⟨x, u, ha, hx⟩ | ⟨job, u, ha, hx⟩ | ⟨_, x, rest, -, -, -, rfl⟩ |
    ⟨-, -, ⟨rest, -, rfl⟩ | ⟨-, rfl⟩⟩ := step_cases hstep
  · exact inv_resetWith s rest
  · obtain ⟨hu, hp, -⟩ := ha.eq
    have hgood : Inv u := hu ▸ h.outside u.held u.inputs
    exact hgood.perform hp hx
  · have hu := ha.eq
    have hgood : Inv u := hu ▸ h.outside s.held u.inputs
    exact hgood.advanceJob (by rw [hu]; exact ha.1) hx
  · exact h.outside (some x) rest
  · exact h.outside s.held rest
  · exact h

/-! ## Command words -/

/-- A word without reserved bits is its operation code (R90). -/
theorem eq_code_of_reserved_zero {w : Word} (h : w.extractLsb' 3 13 = 0) : w = (w.extractLsb' 0 3).setWidth 16 := by
  apply BitVec.eq_of_toNat_eq
  have hhigh : w.toNat >>> 3 % 2 ^ 13 = 0 := by simpa using congrArg BitVec.toNat h
  rw [BitVec.toNat_setWidth_of_le (by decide), BitVec.extractLsb'_toNat]
  omega

/-- The operation a code selects has that code (R91). -/
theorem decodeCommand_code (op : BitVec 3) : (decodeCommand (op.setWidth 16)).toOption.bind opCode = some op := by
  revert op; decide

/-- A command word that decodes to an operation is its code (R91). -/
theorem decodeCommand_ok {w : Word} {i : Instr} (h : decodeCommand w = .ok i) :
    ∃ op, opCode i = some op ∧ w = op.setWidth 16 := by
  have hres : w.extractLsb' 3 13 = 0 := by
    by_contra hres
    rw [decodeCommand, if_pos hres] at h
    cases h
  have hcode := decodeCommand_code (w.extractLsb' 0 3)
  rw [← eq_code_of_reserved_zero hres, h] at hcode
  exact ⟨_, hcode, eq_code_of_reserved_zero hres⟩

theorem eq_of_decodeCommand_parse {w : Word} (h : decodeCommand w = .ok .parse) : w = 0x0005 := by
  obtain ⟨op, hop, rfl⟩ := decodeCommand_ok h
  cases hop; rfl

theorem eq_of_decodeCommand_dsclr {w : Word} (h : decodeCommand w = .ok .dsclr) : w = 0x0007 := by
  obtain ⟨op, hop, rfl⟩ := decodeCommand_ok h
  cases hop; rfl

/-! ## Acceptance and the phase -/

/-- A refusal leaves an idle block idle: only `STATUS` and the `Done` show it (R232). -/
theorem State.refuse_of_idle {s : State} (hp : s.phase = .idle) (c : RefuseCode) :
    s.refuse c = { s with status := statusOfRefusal c, ptrace := s.ptrace ++ [.done] } := by
  rw [hp]; rfl

theorem State.busy_of_idle {s : State} (hp : s.phase = .idle) : s.busy = false := by
  simp only [State.busy, hp]

theorem acceptCommand_of_accepted {w : Word} {i : Instr} {s : State} (hd : decodeCommand w = .ok i)
    (hr : refusalOf i s = none) : acceptCommand w s = .next (s.start w) := by
  simp only [acceptCommand, hd, hr]

theorem acceptCommand_of_refused {w : Word} {i : Instr} {s : State} {c : RefuseCode} (hd : decodeCommand w = .ok i)
    (hr : refusalOf i s = some c) : acceptCommand w s = .next (s.refuse c) := by
  simp only [acceptCommand, hd, hr]

theorem acceptCommand_of_illegal {w : Word} {e : DecodeError} {s : State} (hd : decodeCommand w = .error e) :
    acceptCommand w s = .next (s.refuse .illegalCmd) := by
  simp only [acceptCommand, hd]

/-- Settles O11: the step is the acceptance on the state without the transaction, and the next one runs the word. -/
theorem commandAcceptance : Obligations.CommandAcceptance := by
  unfold Obligations.CommandAcceptance
  intro s u w ha
  obtain ⟨-, hp, -⟩ := ha.eq
  have hstep : step s = acceptCommand w u := step_acts ha
  refine ⟨fun i hd hr => ⟨?_, rfl, fun v hv => ?_⟩, fun i c hd hr => ⟨?_, State.busy_of_idle hp⟩,
    fun e hd => ⟨?_, State.busy_of_idle hp⟩⟩
  · rw [hstep, acceptCommand_of_accepted hd hr]; rfl
  · exact stepRunsTheInstruction.1 _ v w i hv hd
  · rw [hstep, acceptCommand_of_refused hd hr, State.refuse_of_idle hp]
  · rw [hstep, acceptCommand_of_illegal hd, State.refuse_of_idle hp]; rfl

/-- Besides acceptance and the status clear a host transaction stores an operand or a byte, or returns a value. -/
theorem perform_stores {x : HostTxn} {s t : State} (h : perform x s = .next t) :
    (∃ w, x = .write .reg 0 w ∧ acceptCommand w s = .next t) ∨
    (∃ v, x = .write .reg 1 v ∧ t = s.clearStatus v) ∨
    t = { s with len := t.len, val := t.val, sel := t.sel, rxbuf := t.rxbuf, scr := t.scr, ptrace := t.ptrace } := by
  obtain haccept | hclear | ⟨v, -, rfl⟩ | ⟨v, -, rfl⟩ | ⟨v, -, rfl⟩ | ⟨b, a, v, -, hb, -, rfl⟩ | ⟨sp, a, -, rfl⟩ |
    rfl := perform_cases h
  · exact .inl haccept
  · exact .inr (.inl hclear)
  · exact .inr (.inr rfl)
  · exact .inr (.inr rfl)
  · exact .inr (.inr rfl)
  · cases b with
    | rxbuf => exact .inr (.inr rfl)
    | scr => exact .inr (.inr rfl)
    | txbuf => exact absurd rfl hb
  · exact .inr (.inr rfl)
  · exact .inr (.inr rfl)

/-- A host transaction keeps the phase, but for a write to `CMD` that is accepted (R45). -/
theorem perform_phase {x : HostTxn} {s t : State} (hp : s.phase = .idle) (h : perform x s = .next t) :
    t.phase = .idle ∨
    ∃ w i, x = .write .reg 0 w ∧ decodeCommand w = .ok i ∧ refusalOf i s = none ∧ t = s.start w := by
  obtain ⟨w, rfl, hw⟩ | ⟨v, -, rfl⟩ | hstore := perform_stores h
  · obtain ⟨i, hd, hr, rfl⟩ | ⟨c, rfl, -⟩ := acceptCommand_cases hw
    · exact .inr ⟨w, i, rfl, hd, hr, rfl⟩
    · exact .inl rfl
  · unfold State.clearStatus
    split <;> exact .inl hp
  · exact .inl (by rw [hstore]; exact hp)

/-- A frame leaves the block in the loop. -/
theorem exec_frame_phase {i : Instr} {s t : State} (hf : i.isFrame = true) (h : exec i s = .next t) :
    t.phase = s.phase := by
  rw [exec_frame hf] at h
  split at h <;> cases h <;> rfl

/-- How a job can go on: it ends with its one `Done`, or it is an accepted `PARSE` that enters its loop, or a frame of
the loop (R244). -/
theorem advanceJob_phase {job : Job} {s t : State} (hp : s.phase = .running job) (h : advanceJob job s = .next t) :
    (t.phase = .idle ∧ t.ptrace = s.ptrace ++ [.done]) ∨
    (t.phase = .running .frames ∧ (job = .operation 0x0005 ∨ job = .frames)) := by
  cases job with
  | operation w =>
    obtain ⟨i, hd, hf, hx⟩ | ⟨-, rfl⟩ := runCommand_cases h
    · obtain hdone | ⟨rfl, hloop, -⟩ := exec_operation hf hx
      · exact .inl hdone
      · exact .inr ⟨hloop, .inl (by rw [eq_of_decodeCommand_parse hd])⟩
    · exact .inl ⟨rfl, rfl⟩
  | frames =>
    obtain ⟨i, c, -, hf, hx⟩ | ⟨r, -, rfl⟩ := runFrame_cases h
    · exact .inr ⟨(exec_frame_phase hf hx).trans hp, .inr rfl⟩
    · exact .inl ⟨rfl, rfl⟩

/-- The sequencer goes on from the phase it is in. -/
theorem Advances.phase_eq {s u : State} {job : Job} (h : Advances s job u) : u.phase = .running job := by
  rw [h.eq]; exact h.1

/-- A state is not idle and running at once. -/
theorem not_idle_of_running {s : State} {job : Job} (h : s.phase = .running job) (hi : s.phase = .idle) : False :=
  nomatch h.symm.trans hi

/-- What a step can do to the phase: reset, accept a command, go on with the job, or keep the phase (R45, R260). -/
theorem step_phase_cases {s t : State} (h : step s = .next t) :
    (∃ rest, s.inputs = .rst :: rest ∧ t = s.resetWith rest) ∨
    (∃ w u i, Acts s (.write .reg 0 w) u ∧ decodeCommand w = .ok i ∧ refusalOf i u = none ∧ t = u.start w) ∨
    (∃ job u, Advances s job u ∧ advanceJob job u = .next t) ∨ t.phase = s.phase := by
  obtain hreset | ⟨x, u, ha, hx⟩ | hadv | ⟨_, _, _, -, -, -, rfl⟩ | ⟨-, -, ⟨_, -, rfl⟩ | ⟨-, rfl⟩⟩ := step_cases h
  · exact .inl hreset
  · obtain hidle | ⟨w, i, rfl, hd, hr, rfl⟩ := perform_phase ha.eq.2.1 hx
    · exact .inr (.inr (.inr (hidle.trans ha.1.symm)))
    · exact .inr (.inl ⟨w, u, i, ha, hd, hr, rfl⟩)
  · exact .inr (.inr (.inl hadv))
  · exact .inr (.inr (.inr rfl))
  · exact .inr (.inr (.inr rfl))
  · exact .inr (.inr (.inr rfl))

/-- The sequencer starts to run by accepting a command only (R215). -/
theorem step_from_idle {s t : State} {job : Job} (hs : s.phase = .idle) (h : step s = .next t)
    (ht : t.phase = .running job) :
    ∃ w u i, Acts s (.write .reg 0 w) u ∧ decodeCommand w = .ok i ∧ refusalOf i u = none ∧ job = .operation w ∧
      t = u.start w := by
  obtain ⟨rest, -, rfl⟩ | ⟨w, u, i, ha, hd, hr, rfl⟩ | ⟨job', u, ha, -⟩ | hkeep := step_phase_cases h
  · cases ht
  · cases ht
    exact ⟨w, u, i, ha, hd, hr, rfl, rfl⟩
  · exact (not_idle_of_running ha.1 hs).elim
  · exact (not_idle_of_running ht (hkeep.trans hs)).elim

/-- The sequencer stops by a reset, or by ending its operation with `Done` (R244, R260). -/
theorem step_to_idle {s t : State} {job : Job} (hs : s.phase = .running job) (h : step s = .next t)
    (ht : t.phase = .idle) :
    (∃ rest, s.inputs = .rst :: rest ∧ t = s.resetWith rest) ∨
    (∃ u, Advances s job u ∧ t.ptrace = s.ptrace ++ [.done]) := by
  obtain hreset | ⟨w, u, i, ha, -⟩ | ⟨job', u, ha, hx⟩ | hkeep := step_phase_cases h
  · exact .inl hreset
  · exact (not_idle_of_running hs ha.1).elim
  · cases ha.1.symm.trans hs
    obtain ⟨-, hdone⟩ | ⟨hrun, -⟩ := advanceJob_phase ha.phase_eq hx
    · exact .inr ⟨u, ha, by rw [hdone, ha.eq]⟩
    · exact (not_idle_of_running hrun ht).elim
  · exact (not_idle_of_running hs (hkeep.symm.trans ht)).elim

/-- The frame loop comes from itself or from the operation of `PARSE` (R166). -/
theorem step_to_frames {s t : State} (h : step s = .next t) (ht : t.phase = .running .frames) :
    s.phase = .running .frames ∨ s.phase = .running (.operation 0x0005) := by
  obtain ⟨rest, -, rfl⟩ | ⟨w, u, i, -, -, -, rfl⟩ | ⟨job, u, ha, hx⟩ | hkeep := step_phase_cases h
  · cases ht
  · cases ht
  · obtain ⟨hidle, -⟩ | ⟨-, rfl | rfl⟩ := advanceJob_phase ha.phase_eq hx
    · exact (not_idle_of_running ht hidle).elim
    · exact .inr ha.1
    · exact .inl ha.1
  · exact .inl (hkeep.symm.trans ht)

/-- Settles O12: one lemma per clause, each by the four kinds of `step_phase_cases`. -/
theorem onlyAcceptedCommandsRun : Obligations.OnlyAcceptedCommandsRun := by
  unfold Obligations.OnlyAcceptedCommandsRun
  exact ⟨fun _ _ _ => step_from_idle, fun _ _ _ => step_to_idle, fun _ _ => step_to_frames⟩

/-! ## The sticky `ERR` -/

theorem errBit_statusOfRefusal (c : RefuseCode) : errBit (statusOfRefusal c) = true := by
  cases c <;> rfl

/-- What an instruction leaves in `STATUS`: the old value, or that of a refusal (R232). -/
theorem exec_status {i : Instr} {s t : State} (h : exec i s = .next t) :
    t.status = s.status ∨ ∃ c, t.status = statusOfRefusal c := by
  obtain heff | ⟨c, -, rfl⟩ := exec_cases h
  · exact .inl heff.status_kept
  · exact .inr ⟨c, rfl⟩

theorem advanceJob_status {job : Job} {s t : State} (h : advanceJob job s = .next t) :
    t.status = s.status ∨ ∃ c, t.status = statusOfRefusal c := by
  cases job with
  | operation w =>
    obtain ⟨i, -, -, hx⟩ | ⟨-, rfl⟩ := runCommand_cases h
    · exact exec_status hx
    · exact .inr ⟨.illegalCmd, rfl⟩
  | frames =>
    obtain ⟨i, c, -, -, hx⟩ | ⟨r, -, rfl⟩ := runFrame_cases h
    · exact exec_status (s := { s with crc := c }) hx
    · exact .inl rfl

/-- What a host transaction leaves in `STATUS`: the old value, that of a refusal, or the cleared one (R221). -/
theorem perform_status {x : HostTxn} {s t : State} (h : perform x s = .next t) :
    t.status = s.status ∨ (∃ c, t.status = statusOfRefusal c) ∨
    ∃ v, x = .write .reg 1 v ∧ v.getLsbD 0 = true ∧ t = { s with status := 0 } := by
  obtain ⟨w, -, hw⟩ | ⟨v, rfl, rfl⟩ | hstore := perform_stores h
  · obtain ⟨i, -, -, rfl⟩ | ⟨c, rfl, -⟩ := acceptCommand_cases hw
    · exact .inl rfl
    · exact .inr (.inl ⟨c, rfl⟩)
  · by_cases hv : v.getLsbD 0 = true
    · exact .inr (.inr ⟨v, rfl, hv, if_pos hv⟩)
    · exact .inl (by rw [State.clearStatus, if_neg hv])
  · exact .inl (by rw [hstore])

/-- Settles O43: a step that is neither the reset nor the clear leaves `STATUS` or writes one with `ERR`. -/
theorem errIsSticky : Obligations.ErrIsSticky := by
  unfold Obligations.ErrIsSticky
  intro s t h hset hclear
  have hkept {x : BitVec 4} (hx : x = s.status ∨ ∃ c, x = statusOfRefusal c) : errBit x = true := by
    obtain rfl | ⟨c, rfl⟩ := hx
    · exact hset
    · exact errBit_statusOfRefusal c
  have hfalse (ht : t.status = s.status ∨ ∃ c, t.status = statusOfRefusal c) : False :=
    nomatch (hkept ht).symm.trans hclear
  obtain hreset | ⟨x, u, ha, hx⟩ | ⟨job, u, ha, hx⟩ | ⟨_, _, _, -, -, -, rfl⟩ |
    ⟨-, -, ⟨_, -, rfl⟩ | ⟨-, rfl⟩⟩ := step_cases h
  · exact .inl hreset
  · have hu : u.status = s.status := by rw [ha.eq.1]
    obtain hkeep | hrefused | ⟨v, rfl, hv, rfl⟩ := perform_status hx
    · exact (hfalse (.inl (hkeep.trans hu))).elim
    · exact (hfalse (.inr hrefused)).elim
    · exact .inr ⟨v, u, hv, ha, rfl⟩
  · have hu : u.status = s.status := by rw [ha.eq]
    exact (hfalse ((advanceJob_status hx).imp_left (·.trans hu))).elim
  · exact (hfalse (.inl rfl)).elim
  · exact (hfalse (.inl rfl)).elim
  · exact (hfalse (.inl rfl)).elim

/-! ## DeviceState and the trace -/

/-- What an effect does to DeviceState and the trace: nothing, or it is `DSCLR`, or a frame that notifies (R39). -/
theorem Effect.device {i : Instr} {s t : State} (h : Effect i s t) :
    (t.ds = s.ds ∧ t.ntrace = s.ntrace) ∨ (i = .dsclr ∧ t = (s.setDs .unknown).emitDone) ∨
    (i.isFrame = true ∧ t.phase = s.phase ∧ t.ntrace = s.ntrace ++ [t.ds] ∧ t.notifs = s.notifs + 1) := by
  cases h with
  | dsclr => exact .inr (.inl ⟨rfl, rfl⟩)
  | update hframe => exact .inr (.inr ⟨hframe, rfl, rfl, rfl⟩)
  | _ => simp

/-- What the running sequencer does to DeviceState and the trace. -/
theorem advanceJob_device {job : Job} {s t : State} (h : advanceJob job s = .next t) :
    (t.ds = s.ds ∧ t.ntrace = s.ntrace) ∨ (job = .operation 0x0007 ∧ t = (s.setDs .unknown).emitDone) ∨
    (job = .frames ∧ t.phase = s.phase ∧ t.ntrace = s.ntrace ++ [t.ds] ∧ t.notifs = s.notifs + 1) := by
  cases job with
  | operation w =>
    obtain ⟨i, hd, hf, hx⟩ | ⟨-, rfl⟩ := runCommand_cases h
    · obtain heff | ⟨c, -, rfl⟩ := exec_cases hx
      · obtain hkeep | ⟨rfl, rfl⟩ | ⟨hframe, -⟩ := heff.device
        · exact .inl hkeep
        · exact .inr (.inl ⟨by rw [eq_of_decodeCommand_dsclr hd], rfl⟩)
        · cases hf.symm.trans hframe
      · exact .inl ⟨rfl, rfl⟩
    · exact .inl ⟨rfl, rfl⟩
  | frames =>
    obtain ⟨i, c, -, hf, hx⟩ | ⟨r, -, rfl⟩ := runFrame_cases h
    · obtain heff | ⟨c', -, rfl⟩ := exec_cases hx
      · obtain hkeep | ⟨rfl, -⟩ | ⟨-, hnotified⟩ := heff.device
        · exact .inl hkeep
        · cases hf
        · exact .inr (.inr ⟨rfl, hnotified⟩)
      · exact .inl ⟨rfl, rfl⟩
    · exact .inl ⟨rfl, rfl⟩

/-- No host transaction writes DeviceState or the trace (R39, R44). -/
theorem perform_device {x : HostTxn} {s t : State} (h : perform x s = .next t) :
    t.ds = s.ds ∧ t.ntrace = s.ntrace := by
  obtain ⟨w, -, hw⟩ | ⟨v, -, rfl⟩ | hstore := perform_stores h
  · obtain ⟨i, -, -, rfl⟩ | ⟨c, rfl, -⟩ := acceptCommand_cases hw <;> exact ⟨rfl, rfl⟩
  · unfold State.clearStatus
    split <;> exact ⟨rfl, rfl⟩
  · rw [hstore]
    exact ⟨rfl, rfl⟩

/-- What a step does to DeviceState and the trace: nothing, or it is a reset, `DSCLR`, or a frame that notifies. -/
theorem step_device {s t : State} (h : step s = .next t) :
    (t.ds = s.ds ∧ t.ntrace = s.ntrace) ∨
    (∃ rest, s.inputs = .rst :: rest ∧ t = s.resetWith rest) ∨
    (∃ u, Advances s (.operation 0x0007) u ∧ t = (u.setDs .unknown).emitDone) ∨
    (∃ u, Advances s .frames u ∧ t.phase = .running .frames ∧ t.ntrace = s.ntrace ++ [t.ds] ∧
      t.notifs = s.notifs + 1) := by
  obtain hreset | ⟨x, u, ha, hx⟩ | ⟨job, u, ha, hx⟩ | ⟨_, _, _, -, -, -, rfl⟩ |
    ⟨-, -, ⟨_, -, rfl⟩ | ⟨-, rfl⟩⟩ := step_cases h
  · exact .inr (.inl hreset)
  · have hkeep := perform_device hx
    rw [ha.eq.1] at hkeep
    exact .inl hkeep
  · have hphase := ha.phase_eq
    obtain ⟨hds, htrace⟩ | ⟨rfl, rfl⟩ | ⟨rfl, hloop, htrace, hcount⟩ := advanceJob_device hx
    · rw [ha.eq] at hds htrace
      exact .inl ⟨hds, htrace⟩
    · exact .inr (.inr (.inl ⟨u, ha, rfl⟩))
    · rw [ha.eq] at htrace hcount
      exact .inr (.inr (.inr ⟨u, ha, hloop.trans hphase, htrace, hcount⟩))
  · exact .inl ⟨rfl, rfl⟩
  · exact .inl ⟨rfl, rfl⟩
  · exact .inl ⟨rfl, rfl⟩

/-- Settles O47: of the steps of `step_device` only the first keeps DeviceState. -/
theorem onlyFramesDsclrAndResetWriteDeviceState : Obligations.OnlyFramesDsclrAndResetWriteDeviceState := by
  unfold Obligations.OnlyFramesDsclrAndResetWriteDeviceState
  intro s t h hne
  obtain ⟨hds, -⟩ | hwritten := step_device h
  · exact absurd hds hne
  · exact hwritten

/-- Settles O48: of the steps of `step_device` only a frame appends to the trace, and only a reset empties it. -/
theorem traceOnlyGrows : Obligations.TraceOnlyGrows := by
  unfold Obligations.TraceOnlyGrows
  intro s t h
  obtain ⟨-, htrace⟩ | ⟨rest, hr, rfl⟩ | ⟨u, ha, rfl⟩ | ⟨u, ha, -, htrace, -⟩ := step_device h
  · exact .inl htrace
  · exact .inr (.inr ⟨⟨rest, hr, rfl⟩, rfl⟩)
  · exact .inl (by rw [ha.eq]; rfl)
  · exact .inr (.inl ⟨⟨u, ha⟩, htrace⟩)

/-! ## Transactions while the block runs -/

theorem exec_outside_kept {i : Instr} {s t : State} (h : exec i s = .next t) :
    t.held = s.held ∧ t.inputs = s.inputs := by
  obtain ⟨-, -, -, -, hheld, hinputs, -⟩ := operandsAndTextAreNeverWritten i s t h
  exact ⟨hheld, hinputs⟩

/-- Going on with a job leaves the held transaction and the inputs alone. -/
theorem advanceJob_outside_kept {job : Job} {s t : State} (h : advanceJob job s = .next t) :
    t.held = s.held ∧ t.inputs = s.inputs := by
  cases job with
  | operation w =>
    obtain ⟨i, -, -, hx⟩ | ⟨-, rfl⟩ := runCommand_cases h
    · exact exec_outside_kept hx
    · exact ⟨rfl, rfl⟩
  | frames =>
    obtain ⟨i, c, -, -, hx⟩ | ⟨r, -, rfl⟩ := runFrame_cases h
    · exact exec_outside_kept (s := { s with crc := c }) hx
    · exact ⟨rfl, rfl⟩

/-- An instruction does the same whatever comes in later. -/
theorem exec_with_inputs {i : Instr} {s t : State} (ins : List Input) (h : exec i s = .next t) :
    exec i { s with inputs := ins } = .next { t with inputs := ins } := by
  have hheld : ({ t with held := s.held, inputs := ins } : State) = { t with inputs := ins } := by
    rw [← (exec_outside_kept h).1]
  exact (exec_outside s.held ins h).trans (congrArg Host.Outcome.next hheld)

/-- What waits outside makes no difference to what the sequencer goes on with (R70). -/
theorem advanceJob_with_inputs {job : Job} {s t : State} (ins : List Input) (h : advanceJob job s = .next t) :
    advanceJob job { s with inputs := ins } = .next { t with inputs := ins } := by
  cases job with
  | operation w =>
    obtain ⟨i, hd, -, hx⟩ | ⟨hd, rfl⟩ := runCommand_cases h
    · exact (runCommand_of_decode hd _).trans (exec_with_inputs ins hx)
    · simp only [advanceJob, runCommand, hd]; rfl
  | frames =>
    have hexamine := s.examine_outside s.held ins
    obtain ⟨i, c, he, -, hx⟩ | ⟨r, he, rfl⟩ := runFrame_cases h
    · exact (runFrame_of_examine (hexamine.trans he)).trans (exec_with_inputs ins hx)
    · simp only [advanceJob, runFrame, hexamine.trans he]; rfl

/-- Settles O54: a presented transaction is held, what waits outside has no influence on the job, and an idle block
performs what is held. -/
theorem transactionsAreHeldWhileBusy : Obligations.TransactionsAreHeldWhileBusy := by
  unfold Obligations.TransactionsAreHeldWhileBusy
  refine ⟨fun s job t rest hp hh hi => ?_, fun s u v job ha hstep => ?_, fun s v job hp hi hstep => ?_,
    fun s t hp hh hn => step_acts ⟨hp, .inr ⟨hh, hn, rfl⟩⟩⟩
  · simp only [step, stepBlock, stepRunning, hp, hi, hh]
  · rw [step_advances ha] at hstep
    obtain ⟨hheld, hinputs⟩ := advanceJob_outside_kept hstep
    exact ⟨hheld.trans (by rw [ha.eq]), hinputs⟩
  · have hjob : advanceJob job s = .next v := (step_advances ⟨hp, .inl ⟨hi, rfl⟩⟩).symm.trans hstep
    refine ⟨fun rest => ?_, fun t rest hheld => ?_⟩
    · have ha : Advances { s with inputs := .quiet :: rest } job { s with inputs := rest } :=
        ⟨hp, .inr (.inl ⟨rest, rfl, rfl⟩)⟩
      exact (step_advances ha).trans (advanceJob_with_inputs rest hjob)
    · obtain ⟨x, hx⟩ := Option.ne_none_iff_exists'.mp hheld
      have ha : Advances { s with inputs := .txn t :: rest } job { s with inputs := .txn t :: rest } :=
        ⟨hp, .inr (.inr ⟨t, rest, x, rfl, hx, rfl⟩)⟩
      exact (step_advances ha).trans (advanceJob_with_inputs (.txn t :: rest) hjob)

/-! ## Host writes of the operands -/

/-- Settles O52: the step is `hostWriteReg` at the index. -/
theorem hostWritesTheOperands : Obligations.HostWritesTheOperands := by
  unfold Obligations.HostWritesTheOperands
  intro s u i v ha
  have hstep : step s = hostWriteReg i v u := step_acts ha
  refine ⟨?_, ?_, ?_, fun hi => hstep.trans (hostWriteReg_readOnly hi v u)⟩ <;> rintro rfl
  · rw [hstep, BitVec.ofNat_toNat]; rfl
  · exact hstep
  · rw [hstep, BitVec.ofNat_toNat]; rfl

end Sys2Proof.Machine
end

section
/-! PROOFS. The memory of a running `PARSE`: the two views of the text (O34), the frame a step runs (O13), and the run
of the loop against its one-function form (O22). -/

namespace Sys2Proof.Machine

/-! ## The four checks over decoded bytes -/

/-- The four checks on a candidate given by its decoded bytes alone (R74): `decodeFrame`, but with the computed checksum
in the answer. -/
def checkFrame (bytes : List Byte) : Except StopReason (Instr × Word) :=
  decodeFrameWith (2 * bytes.length) (fun n => crcBytes (bytes.take n)) bytes

/-- A decoded frame is one that passes the checks. -/
theorem checkFrame_of_decodeFrame {bytes : List Byte} {i : Instr} (h : decodeFrame bytes = .ok i) :
    ∃ c, checkFrame bytes = .ok (i, c) := by
  unfold decodeFrame at h
  split at h
  · next c hok => cases h; exact ⟨c, hok⟩
  · cases h

/-- The checks on a text whose checksums are those of its decoded bytes: an odd last character makes no difference
(R66, R74). -/
theorem decodeFrameWith_eq_checkFrame {n : Nat} {crcOf : Nat → Word} {bytes : List Byte} (hn : 2 * bytes.length ≤ n)
    (hcrc : ∀ k ≤ bytes.length, crcOf k = crcBytes (bytes.take k)) :
    decodeFrameWith n crcOf bytes = checkFrame bytes := by
  match bytes with
  | m0 :: m1 :: l :: rest =>
    simp only [List.length_cons] at hn hcrc
    simp only [checkFrame, decodeFrameWith, List.length_cons]
    rw [if_neg (show ¬n < 6 by omega), if_neg (show ¬2 * (rest.length + 1 + 1 + 1) < 6 by omega)]
    by_cases hl : rest.length < l.toNat
    · rw [if_pos hl, if_pos hl]
    · rw [if_neg hl, if_neg hl, hcrc (l.toNat + 1) (by omega)]
  | [] | [_] | [_, _] => rfl

/-- What the checks accept is a well-formed frame of at least 5 bytes that lies inside the bytes, with the checksum of
its bytes 0 to `L` (R172, R173, R175). -/
theorem checkFrame_ok {bytes : List Byte} {i : Instr} {c : Word} (h : checkFrame bytes = .ok (i, c)) :
    i.isFrame = true ∧ i.wf = true ∧ 2 ≤ i.lengthByte ∧ 3 + i.lengthByte ≤ bytes.length ∧
      c = crcBytes (bytes.take (i.lengthByte + 1)) := by
  obtain ⟨l, rest, hbytes, -, hrest, hc, hreceived, rfl⟩ := decodeFrameWith_eq_ok h
  have hlen : bytes.length = rest.length + 3 := congrArg List.length hbytes
  have hl : 2 ≤ l.toNat := two_le_of_checksum hbytes (hc.symm.trans hreceived)
  obtain ⟨hframe, hrow⟩ := classify_row ((bytes.take (l.toNat + 1)).drop 3)
  have hL : (classify ((bytes.take (l.toNat + 1)).drop 3)).lengthByte = l.toNat := by
    rw [(classify_body _).2, List.length_drop, List.length_take]
    omega
  have hwf : (classify ((bytes.take (l.toNat + 1)).drop 3)).wf = true := by
    rw [Instr.wf, hrow, hL, Bool.and_true, decide_eq_true_eq]
    exact Nat.le_of_lt_succ l.isLt
  exact ⟨hframe, hwf, by omega, by omega, by rw [hL]; exact hc⟩

/-! ## The two views in the loop -/

/-- Settles O34: the invariant of the loop holds at each of its candidates. -/
theorem textAndScratchChecksumsAgree : Obligations.TextAndScratchChecksumsAgree := by
  unfold Obligations.TextAndScratchChecksumsAgree
  intro s n h hp hn
  exact (h.inLoop hp).textCrc h.lockStep hn

theorem State.remainingBytes_length (s : State) : s.remainingBytes.length = s.nbytes - s.bcur.toNat :=
  s.memRead_length .scr _ _

/-- In the loop the checks on the text are the checks on the decoded bytes (R74). -/
theorem Running.examine_eq {s : State} (h : Running s) (hlock : s.hcur.toNat = 2 * s.bcur.toNat) :
    s.examine = checkFrame s.remainingBytes := by
  have hfits := h.cursorFits
  have hlen := s.remainingBytes_length
  refine decodeFrameWith_eq_checkFrame ?_ fun k hk => ?_
  · rw [State.remainingChars, hlock]
    simp only [State.nbytes] at hlen hfits
    omega
  · rw [h.textCrc hlock (by omega), State.remainingBytes, State.memRead_take, Nat.min_eq_left (by omega)]

/-- Settles O13: the checks of the step are those of the byte-level decoder, and they accept well-formed frames only. -/
theorem stepRunsTheFrameInScratch : Obligations.StepRunsTheFrameInScratch := by
  unfold Obligations.StepRunsTheFrameInScratch
  intro s u i h ha hd
  obtain ⟨c, hcheck⟩ := checkFrame_of_decodeFrame hd
  obtain ⟨-, hwf, -, -, rfl⟩ := checkFrame_ok hcheck
  have hexamine := ((h.inLoop ha.1).examine_eq h.lockStep).trans hcheck
  exact ⟨hwf, stepRunsTheInstruction.2 s u i _ ha hexamine⟩

/-! ## One iteration of the big-step form -/

theorem decText_take (lc : LowercaseHex) (t : List Byte) (n : Nat) :
    decText lc (t.take (2 * n)) = (decText lc t).take n := by
  induction t using decText.induct generalizing n with
  | case1 h l t ih =>
    cases n with
    | zero => rfl
    | succ n => rw [Nat.mul_succ]; simp only [List.take_succ_cons, decText, ih]
  | case2 => cases n <;> rfl
  | case3 => simp [decText]

theorem decText_drop (lc : LowercaseHex) (t : List Byte) (n : Nat) :
    decText lc (t.drop (2 * n)) = (decText lc t).drop n := by
  induction t using decText.induct generalizing n with
  | case1 h l t ih =>
    cases n with
    | zero => rfl
    | succ n => rw [Nat.mul_succ]; simp only [List.drop_succ_cons, decText, ih]
  | case2 => cases n <;> simp [decText, Nat.mul_succ]
  | case3 => simp [decText]

/-- The checks `parseLoop` makes on a text are those on its decoded bytes. -/
theorem checkText_eq (lc : LowercaseHex) (t : List Byte) :
    decodeFrameWith t.length (fun n => crcText lc (t.take (2 * n))) (decText lc t) = checkFrame (decText lc t) := by
  refine decodeFrameWith_eq_checkFrame ?_ fun k _ => ?_
  · rw [decText_length]; omega
  · rw [crcText, decText_take]

theorem parseLoop_of_error {lc : LowercaseHex} {t : List Byte} {r : StopReason}
    (h : checkFrame (decText lc t) = .error r) (fuel : Nat) (d : DeviceState) :
    parseLoop lc (fuel + 1) t d = parseStopped r d := by
  rw [parseLoop, checkText_eq, h]

theorem parseLoop_of_ok {lc : LowercaseHex} {t : List Byte} {i : Instr} {c : Word}
    (h : checkFrame (decText lc t) = .ok (i, c)) (fuel : Nat) (d : DeviceState) :
    parseLoop lc (fuel + 1) t d =
      ParseResult.after (frameUpdate i d) i.lengthByte c
        (parseLoop lc fuel (t.drop (2 * (3 + i.lengthByte))) ((frameUpdate i d).getD d)) := by
  rw [parseLoop, checkText_eq, h]

/-! ## A frame and a result, on the registers -/

/-- The state after a validated frame of length byte `l` with checksum `c` and update `u`, if it has one (R174). -/
def State.passFrame (s : State) (c : Word) (u : Option DeviceState) (l : Nat) : State :=
  { s with
    frames := s.frames + 1
    notifs := s.notifs + BitVec.ofNat 8 (if u.isSome then 1 else 0)
    ignored := s.ignored + BitVec.ofNat 8 (if u.isSome then 0 else 1)
    hcur := s.hcur + BitVec.ofNat 12 (2 * (3 + l))
    bcur := s.bcur + BitVec.ofNat 11 (3 + l)
    crc := c
    ds := u.getD s.ds
    ntrace := s.ntrace ++ u.toList
    ptrace := s.ptrace ++ List.replicate (if u.isSome then 1 else 0) .notify }

theorem State.passFrame_some (s : State) (c : Word) (d : DeviceState) (l : Nat) :
    s.passFrame c (some d) l = ({ s with crc := c } : State).acceptUpdate d l := by
  simp only [State.passFrame, Option.isSome_some, if_true, BitVec.ofNat_eq_ofNat, BitVec.add_zero]
  rfl

theorem State.passFrame_none (s : State) (c : Word) (l : Nat) :
    s.passFrame c none l = ({ s with crc := c } : State).acceptIgnored l := by
  simp only [State.passFrame, Option.isSome_none, Bool.false_eq_true, if_false, Option.toList_none,
    List.replicate_zero, List.append_nil, BitVec.ofNat_eq_ofNat, BitVec.add_zero]
  rfl

/-- The loop executes a validated frame by passing it. -/
theorem exec_frame_eq_passFrame {i : Instr} (hf : i.isFrame = true) (s : State) (c : Word) :
    exec i { s with crc := c } = .next (s.passFrame c (frameUpdate i s.ds) i.lengthByte) := by
  rw [exec_frame hf]
  cases frameUpdate i s.ds with
  | some d => rw [s.passFrame_some]
  | none => rw [s.passFrame_none]

/-- The end of a `PARSE` whose loop has the result `r` from here on (R165). -/
def State.finishParse (s : State) (r : ParseResult) : State :=
  { s with
    frames := s.frames + BitVec.ofNat 8 r.frames
    notifs := s.notifs + BitVec.ofNat 8 r.notifs
    ignored := s.ignored + BitVec.ofNat 8 r.ignored
    stopwhy := r.stop
    hcur := s.hcur + BitVec.ofNat 12 (2 * r.consumed)
    bcur := s.bcur + BitVec.ofNat 11 r.consumed
    crc := r.crc.getD s.crc
    ds := r.ds
    ntrace := s.ntrace ++ r.events
    ptrace := s.ptrace ++ List.replicate r.notifs .notify ++ [.done]
    phase := .idle }

/-- A loop that stops at once leaves the stop's code and checksum (R169). -/
theorem State.finishParse_stopped (s : State) (r : StopReason) :
    s.finishParse (parseStopped r s.ds) = s.stopParse r := by
  have hcrc : (parseStopped r s.ds).crc.getD s.crc = stopCrc s.crc r := by cases r <;> rfl
  rw [State.finishParse, hcrc]
  simp [parseStopped, State.stopParse, State.emitDone]

theorem add_ofNat_add {w : Nat} (x : BitVec w) (m n : Nat) :
    x + BitVec.ofNat w (m + n) = x + BitVec.ofNat w n + BitVec.ofNat w m := by
  rw [Nat.add_comm, BitVec.ofNat_add, BitVec.add_assoc]

/-- A frame in front of the rest of the loop is passed first (R174). -/
theorem State.finishParse_after (s : State) (u : Option DeviceState) (l : Nat) (c : Word) (r : ParseResult) :
    s.finishParse (.after u l c r) = (s.passFrame c u l).finishParse r := by
  have hnotify (m n : Nat) :
      List.replicate (m + n) PortEvent.notify = List.replicate n .notify ++ List.replicate m .notify := by
    rw [Nat.add_comm, List.replicate_add]
  simp only [State.finishParse, State.passFrame, ParseResult.after, Nat.mul_add 2 r.consumed, add_ofNat_add, hnotify,
    ← List.append_assoc]
  rfl

/-! ## The machine's run of the loop -/

/-- A state at a candidate of a running `PARSE`, with nothing coming in from outside. -/
structure AtCandidate (s : State) : Prop where
  running : Running s
  /-- The two cursors are at the same place of the text (R35). -/
  lockStep : s.hcur.toNat = 2 * s.bcur.toNat
  inLoop : s.phase = .running .frames
  nothingHeld : s.held = none
  noInputs : s.inputs = []

/-- A frame inside the text moves both cursors past it, without wrapping (R174). -/
theorem AtCandidate.passFrame_cursors {s : State} (h : AtCandidate s) (c : Word) (u : Option DeviceState) {l : Nat}
    (hfits : 3 + l ≤ s.remainingBytes.length) :
    (s.passFrame c u l).bcur.toNat = s.bcur.toNat + (3 + l) ∧
    (s.passFrame c u l).hcur.toNat = s.hcur.toNat + 2 * (3 + l) := by
  have hcap := nbytes_le h.running.lenFits
  have hlock := h.lockStep
  rw [s.remainingBytes_length] at hfits
  simp only [Config.scrCap] at hcap
  exact ⟨toNat_add_ofNat (by omega), toNat_add_ofNat (by omega)⟩

/-- A frame inside the text leads to the next candidate. -/
theorem AtCandidate.passFrame {s : State} (h : AtCandidate s) (c : Word) (u : Option DeviceState) {l : Nat}
    (hfits : 3 + l ≤ s.remainingBytes.length) : AtCandidate (s.passFrame c u l) := by
  obtain ⟨hbcur, hhcur⟩ := h.passFrame_cursors c u hfits
  have hlock := h.lockStep
  rw [s.remainingBytes_length] at hfits
  exact
  { h with
    running :=
      { h.running with
        cursorFits := hbcur.trans_le (show s.bcur.toNat + (3 + l) ≤ s.nbytes by omega)
        decoded := h.running.decoded }
    lockStep := by omega }

/-- The next candidate starts behind the frame. -/
theorem AtCandidate.passFrame_remainingBytes {s : State} (h : AtCandidate s) (c : Word) (u : Option DeviceState)
    {l : Nat} (hfits : 3 + l ≤ s.remainingBytes.length) :
    (s.passFrame c u l).remainingBytes = s.remainingBytes.drop (3 + l) := by
  have hread : ∀ a n, (s.passFrame c u l).memRead .scr a n = s.memRead .scr a n :=
    fun _ _ => State.memRead_congr fun _ _ => rfl
  obtain ⟨hbcur, -⟩ := h.passFrame_cursors c u hfits
  rw [State.remainingBytes, hread, hbcur, State.remainingBytes, State.memRead_drop, Nat.sub_sub]
  rfl

/-- With nothing coming in, a step at a candidate is an iteration of the loop. -/
theorem AtCandidate.step_eq {s : State} (h : AtCandidate s) : step s = runFrame s :=
  step_advances ⟨h.inLoop, .inl ⟨h.noInputs, rfl⟩⟩

/-- A rejected candidate ends the loop (R169). -/
theorem AtCandidate.step_of_error {s : State} (h : AtCandidate s) {r : StopReason}
    (hcheck : checkFrame s.remainingBytes = .error r) : step s = .next (s.stopParse r) := by
  rw [h.step_eq, runFrame, h.running.examine_eq h.lockStep, hcheck]

/-- An accepted candidate is passed (R174). -/
theorem AtCandidate.step_of_ok {s : State} (h : AtCandidate s) {i : Instr} {c : Word}
    (hcheck : checkFrame s.remainingBytes = .ok (i, c)) :
    step s = .next (s.passFrame c (frameUpdate i s.ds) i.lengthByte) := by
  rw [h.step_eq, runFrame_of_examine ((h.running.examine_eq h.lockStep).trans hcheck)]
  exact exec_frame_eq_passFrame (checkFrame_ok hcheck).1 s c

theorem run_succ {s t : State} (h : step s = .next t) (k : Nat) :
    Host.Core.run Sys2Proof.core (k + 1) s = Host.Core.run Sys2Proof.core k t := by
  have hcore : Sys2Proof.core.step s = .next t := h
  simp only [Host.Core.run, hcore]

/-- An idle block with nothing to do holds its state (R252). -/
theorem run_of_idle {s : State} (hp : s.phase = .idle) (hh : s.held = none) (hi : s.inputs = []) (k : Nat) :
    Host.Core.run Sys2Proof.core k s = .next s := by
  induction k with
  | zero => rfl
  | succ k ih =>
    have hstep : step s = .next s := by simp only [step, stepBlock, stepFree, hp, hh, hi]
    rw [run_succ hstep, ih]

/-- From a candidate on, the machine's run ends in the result of `parseLoop` on any text that decodes to the bytes that
remain. Each frame takes at least 5 of them, so a fifth of their number bounds the iterations of both (R184, R187). -/
theorem AtCandidate.run_eq {s : State} (h : AtCandidate s) {t : List Byte}
    (hbytes : s.remainingBytes = decText s.lowercase t) {fuel k : Nat} (hfuel : s.remainingBytes.length / 5 < fuel)
    (hk : s.remainingBytes.length / 5 < k) :
    Host.Core.run Sys2Proof.core k s = .next (s.finishParse (parseLoop s.lowercase fuel t s.ds)) := by
  induction fuel generalizing s t k with
  | zero => cases hfuel
  | succ fuel ih =>
    obtain ⟨k, rfl⟩ := Nat.exists_eq_succ_of_ne_zero (Nat.ne_zero_of_lt hk)
    cases hcheck : checkFrame s.remainingBytes with
    | error r =>
      rw [parseLoop_of_error (hbytes ▸ hcheck), s.finishParse_stopped, run_succ (h.step_of_error hcheck)]
      exact run_of_idle (s.stopParse_phase r) h.nothingHeld h.noInputs k
    | ok frame =>
      obtain ⟨i, c⟩ := frame
      obtain ⟨-, -, hl, hfits, -⟩ := checkFrame_ok hcheck
      have hrest := h.passFrame_remainingBytes c (frameUpdate i s.ds) hfits
      have hless : (s.remainingBytes.drop (3 + i.lengthByte)).length / 5 + 1 ≤ s.remainingBytes.length / 5 := by
        rw [List.length_drop]; omega
      rw [parseLoop_of_ok (hbytes ▸ hcheck), s.finishParse_after, run_succ (h.step_of_ok hcheck)]
      refine ih (h.passFrame c _ hfits) ?_ ?_ ?_
      · rw [hrest, hbytes]
        exact (decText_drop s.lowercase t _).symm
      · rw [hrest]; omega
      · rw [hrest]; omega

/-! ## From the start of `PARSE` to its result -/

/-- The loop of `PARSE` starts at the first candidate, with the decoded text in `SCR` (R167, R168). -/
theorem atCandidate_of_start {s : State} (hfit : s.len.toNat ≤ Config.rxCap) (hh : s.held = none)
    (hi : s.inputs = []) : AtCandidate s.clearParse.decodeText.enterLoop where
  running :=
    { lenFits := hfit
      cursorFits := Nat.zero_le _
      outlenIs := s.decodeText_outlen_toNat
      stopZero := rfl
      decoded := s.clearParse.decodeText_peek }
  lockStep := rfl
  inLoop := rfl
  nothingHeld := hh
  noInputs := hi

/-- The text is read alike whatever the phase and the results of an earlier `PARSE`. -/
theorem State.textOperand_congr {s t : State} (hlen : s.len = t.len) (hrx : s.rxbuf = t.rxbuf)
    (hepoch : s.epoch = t.epoch) : s.textOperand = t.textOperand := by
  rw [State.textOperand, State.count, hlen]
  exact State.memRead_congr fun _ _ => State.peek_congr (b := .rxbuf) hrx hepoch _

/-- All the decoded bytes remain at the first candidate. -/
theorem remainingBytes_of_start (s : State) :
    s.clearParse.decodeText.enterLoop.remainingBytes = decText s.lowercase s.textOperand := by
  have hlen : (decText s.lowercase s.textOperand).length = s.nbytes := by
    rw [decText_length, State.textOperand, State.memRead_length, State.nbytes]
  have htext : s.clearParse.textOperand = s.textOperand := State.textOperand_congr rfl rfl rfl
  calc s.clearParse.decodeText.enterLoop.remainingBytes
      _ = (s.clearParse.memWrite .scr 0 (decText s.lowercase s.clearParse.textOperand)).memRead .scr 0 s.nbytes :=
        State.memRead_congr fun _ _ => rfl
      _ = decText s.lowercase s.textOperand := by rw [htext, ← hlen, State.memRead_memWrite_same]

/-- The result from the first candidate on is the result of the whole `PARSE`. -/
theorem finishParse_of_start (s : State) :
    s.clearParse.decodeText.enterLoop.finishParse (parseText s.lowercase s.textOperand s.ds) = s.afterParse := by
  have htext : s.clearParse.textOperand = s.textOperand := State.textOperand_congr rfl rfl rfl
  simp only [State.textOperand, State.count, State.clearParse_len] at htext
  simp [State.finishParse, State.afterParse, State.decodeText, State.enterLoop, htext]

/-- 205 iterations are enough for the 1024 bytes of the largest text: 204 frames and the stop (R33, R184). -/
theorem run_parse {s : State} (hfit : s.len.toNat ≤ Config.rxCap) (hh : s.held = none) (hi : s.inputs = []) :
    Host.Core.run Sys2Proof.core 205 s.clearParse.decodeText.enterLoop = .next s.afterParse := by
  have hbytes := remainingBytes_of_start s
  have hlen : s.clearParse.decodeText.enterLoop.remainingBytes.length = s.textOperand.length / 2 := by
    rw [hbytes, decText_length]
  have htext : s.textOperand.length = s.len.toNat := s.memRead_length .rxbuf 0 _
  simp only [Config.rxCap] at hfit
  rw [(atCandidate_of_start hfit hh hi).run_eq (fuel := s.textOperand.length + 1) hbytes (by omega) (by omega)]
  exact congrArg Host.Outcome.next (finishParse_of_start s)

/-- Starting a command changes nothing that the result of a `PARSE` depends on. -/
theorem State.start_afterParse (s : State) (w : Word) : (s.start w).afterParse = s.afterParse := by
  have htext : (s.start w).textOperand = s.textOperand := State.textOperand_congr rfl rfl rfl
  have hread : (s.start w).memRead .rxbuf 0 s.len.toNat = s.memRead .rxbuf 0 s.len.toNat := htext
  simp only [State.afterParse, State.decodeText, htext, State.start_len, State.start_lowercase, hread]
  rfl

/-- Settles O22: the loop by induction over its iterations, the write to `CMD` as its acceptance and its operation. -/
theorem parseRunsToItsResult : Obligations.ParseRunsToItsResult := by
  unfold Obligations.ParseRunsToItsResult
  have heffect {s : State} (hfit : s.len.toNat ≤ 2048) : Effect .parse s s.clearParse.decodeText.enterLoop :=
    .parse (State.textFits_iff.mpr hfit)
  refine ⟨fun s hfit hh hi => ⟨_, (heffect hfit).exec_eq, run_parse hfit hh hi⟩, fun s u hfit ha hi => ?_⟩
  obtain ⟨hu, -, hheld⟩ := ha.eq
  have hfitu : u.len.toNat ≤ 2048 := by rw [hu]; exact hfit
  have hdecode : decodeCommand 0x0005 = .ok .parse := rfl
  have haccept : step s = .next (u.start 0x0005) :=
    (step_acts ha).trans (acceptCommand_of_accepted hdecode (heffect hfitu).notRefused)
  have hgoes : Advances (u.start 0x0005) (.operation 0x0005) (u.start 0x0005) := ⟨rfl, .inl ⟨hi, rfl⟩⟩
  have hoperation : step (u.start 0x0005) = .next (u.start 0x0005).clearParse.decodeText.enterLoop :=
    (stepRunsTheInstruction.1 _ _ _ _ hgoes hdecode).trans (heffect (s := u.start 0x0005) hfitu).exec_eq
  rw [run_succ haccept, run_succ hoperation, run_parse (s := u.start 0x0005) hfitu hheld hi, State.start_afterParse]

end Sys2Proof.Machine
end

section
/-! PROOFS. The encodings: decoding and encoding of command words and frames undo each other (O5, O6, O7), the words and
bytes written out in the spec (O8), and the refused command words (O15). -/

namespace Sys2Proof.Machine

/-! ## Command words and their codes -/

theorem encode_of_opCode {i : Instr} {op : BitVec 3} (h : opCode i = some op) :
    encode i = .command (op.setWidth 16) := by
  simp only [encode, h]

theorem encode_frame {i : Instr} (hf : i.isFrame = true) : encode i = .frame (withChecksum (frameBody i)) := by
  cases i with
  | status | setack | setcmd | other => rfl
  | _ => cases hf

/-- The command word of an operation code selects the operation of that code (R91). -/
theorem decodeCommand_of_opCode {i : Instr} {op : BitVec 3} (h : opCode i = some op) :
    decodeCommand (op.setWidth 16) = .ok i := by
  cases i with
  | status | setack | setcmd | other => cases h
  | _ => cases h; rfl

/-- Decoding and encoding of command words are inverse to each other (R90, R91). -/
theorem decodeCommand_eq_ok_iff {w : Word} {i : Instr} : decodeCommand w = .ok i ↔ encode i = .command w := by
  constructor
  · intro h
    obtain ⟨op, hop, rfl⟩ := decodeCommand_ok h
    exact encode_of_opCode hop
  · intro h
    cases hop : opCode i with
    | none => simp only [encode, hop, reduceCtorEq] at h
    | some op =>
      rw [encode_of_opCode hop, Encoded.command.injEq] at h
      rw [← h]
      exact decodeCommand_of_opCode hop

theorem decodeCommand_of_reserved {w : Word} (h : w.extractLsb' 3 13 ≠ 0) :
    decodeCommand w = .error .reservedBits := if_pos h

/-- The masks of the operation rows keep all 16 bits, so a row matches its own word only (R106). -/
theorem selectCommandRow_of_reserved {w : Word} (h : w.extractLsb' 3 13 ≠ 0) : selectCommandRow w = none := by
  have hrows : ∀ r ∈ commandRows, r.mask = BitVec.allOnes 16 ∧ r.pattern.extractLsb' 3 13 = 0 := by decide
  rw [selectCommandRow, Option.map_eq_none_iff, List.find?_eq_none]
  intro r hr hmatch
  obtain ⟨hmask, hpattern⟩ := hrows r hr
  rw [hmask, BitVec.and_allOnes, beq_iff_eq] at hmatch
  exact h (hmatch ▸ hpattern)

/-- The row of an operation code has the mnemonic of the code's operation (R91, R106). -/
theorem selectCommandRow_code (op : BitVec 3) :
    selectCommandRow (op.setWidth 16) =
      match decodeCommand (op.setWidth 16) with
      | .ok i => some i.mnemonic
      | .error _ => none := by
  revert op; decide

/-- Settles O7: a word without reserved bits is its code, any other word matches no row. -/
theorem commandWordsAreExactlyTheEightCodes : Obligations.CommandWordsAreExactlyTheEightCodes := by
  unfold Obligations.CommandWordsAreExactlyTheEightCodes
  refine ⟨fun w i => decodeCommand_eq_ok_iff, fun w => ?_⟩
  by_cases hres : w.extractLsb' 3 13 = 0
  · rw [eq_code_of_reserved_zero hres]
    exact selectCommandRow_code _
  · rw [decodeCommand_of_reserved hres, selectCommandRow_of_reserved hres]

/-- A command word has one of its bits 15:3 set when it is none of the eight codes (R92). -/
theorem reserved_iff (w : Word) : w.extractLsb' 3 13 ≠ 0 ↔ 8 ≤ w.toNat := by
  have hw := w.isLt
  rw [ne_eq, ← BitVec.toNat_inj, BitVec.extractLsb'_toNat, show (0 : BitVec 13).toNat = 0 from rfl]
  omega

/-- Settles O15: a reserved bit makes the word illegal, which the acceptance refuses. -/
theorem reservedBitsAreRefused : Obligations.ReservedBitsAreRefused := by
  unfold Obligations.ReservedBitsAreRefused
  refine ⟨fun s u w hres ha => ?_, reserved_iff⟩
  obtain ⟨-, -, hillegal⟩ := commandAcceptance s u w ha
  exact (hillegal _ (decodeCommand_of_reserved hres)).1

/-! ## The bytes of a frame -/

theorem hiByte_be16 (a b : Byte) : hiByte (be16 a b) = a := by
  apply BitVec.eq_of_getLsbD_eq
  intro i hi
  simp [hiByte, be16, hi, show 8 + i < 16 by omega]

theorem loByte_be16 (a b : Byte) : loByte (be16 a b) = b := by
  apply BitVec.eq_of_getLsbD_eq
  intro i hi
  simp [loByte, be16, hi, show i < 16 by omega]

/-- The length byte of a frame counts its body bytes 3 to `L` and the checksum (R95). -/
theorem lengthByte_eq {i : Instr} (hf : i.isFrame = true) : i.lengthByte = (bodyTail i).length + 2 := by
  cases i with
  | status | setack | setcmd | other => simp only [Instr.lengthByte, bodyTail, List.length_cons]; omega
  | _ => cases hf

/-- A frame that passes the checks is decoded; `checkFrame_of_decodeFrame` is the other direction. -/
theorem decodeFrame_of_checkFrame {bytes : List Byte} {i : Instr} {c : Word} (h : checkFrame bytes = .ok (i, c)) :
    decodeFrame bytes = .ok i := by
  rw [checkFrame] at h
  rw [decodeFrame, h]

/-- A magic, a length byte that counts, and the checksum of both and the body are a frame with that body (R96, R97). -/
theorem decodeFrame_withChecksum {l : Byte} {tail : List Byte} (hl : l.toNat = tail.length + 2) :
    decodeFrame (withChecksum (Config.magic0 :: Config.magic1 :: l :: tail)) = .ok (classify tail) := by
  generalize hbody : Config.magic0 :: Config.magic1 :: l :: tail = body
  have hlen : body.length = l.toNat + 1 := by rw [← hbody, hl]; rfl
  have htake : (withChecksum body).take (l.toNat + 1) = body := by rw [withChecksum, ← hlen, List.take_left]
  have hhi : (withChecksum body).getD (l.toNat + 1) 0 = hiByte (crcBytes body) := by
    simp [withChecksum, List.getD, ← hlen]
  have hlo : (withChecksum body).getD (l.toNat + 2) 0 = loByte (crcBytes body) := by
    simp [withChecksum, List.getD, show l.toNat + 2 = body.length + 1 by omega]
  have hcheck : checkFrame (withChecksum body) =
      .ok (classify (((withChecksum body).take (l.toNat + 1)).drop 3),
        crcBytes ((withChecksum body).take (l.toNat + 1))) := by
    refine decodeFrameWith_ok (l := l) (rest := tail ++ [hiByte (crcBytes body), loByte (crcBytes body)]) ?_ ?_ ?_ ?_
    · rw [withChecksum, ← hbody]; rfl
    · simp only [withChecksum, List.length_append, hlen]; omega
    · simp only [List.length_append, List.length_cons]; omega
    · rw [htake, hhi, hlo, be16_hi_lo]
  rw [htake, ← hbody] at hcheck
  rw [← hbody]
  exact decodeFrame_of_checkFrame hcheck

/-- Settles O5: an operation's word is its code, a frame passes its own checks and is classified by its body. -/
theorem decodeUndoesEncode : Obligations.DecodeUndoesEncode := by
  unfold Obligations.DecodeUndoesEncode
  intro i hwf
  obtain ⟨hsize, hrow⟩ : i.lengthByte ≤ 255 ∧ i.rowOk = true := by
    simpa only [Instr.wf, Bool.and_eq_true, decide_eq_true_eq] using hwf
  by_cases hf : i.isFrame = true
  · have hl : (BitVec.ofNat 8 i.lengthByte).toNat = (bodyTail i).length + 2 := by
      rw [← lengthByte_eq hf, BitVec.toNat_ofNat, Nat.mod_eq_of_lt (by omega)]
    calc decode (encode i) = decodeFrame (withChecksum (frameBody i)) := by rw [encode_frame hf]; rfl
      _ = .ok (classify (bodyTail i)) := decodeFrame_withChecksum hl
      _ = .ok i := by rw [classify_bodyTail hf hrow]
  · obtain ⟨op, hop⟩ : ∃ op, opCode i = some op := by
      cases i with
      | status | setack | setcmd | other => exact absurd rfl hf
      | _ => exact ⟨_, rfl⟩
    rw [encode_of_opCode hop]
    exact decodeCommand_of_opCode hop

theorem take_add_two {bytes : List Byte} {n : Nat} (h : n + 2 ≤ bytes.length) :
    bytes.take (n + 2) = bytes.take n ++ [bytes.getD n 0, bytes.getD (n + 1) 0] := by
  rw [List.take_succ_eq_append_getElem (by omega), List.take_succ_eq_append_getElem (by omega), List.append_assoc,
    List.getD_eq_getElem _ _ (by omega), List.getD_eq_getElem _ _ (by omega)]
  rfl

/-- Bytes that pass the checks start with the bytes of the frame they are answered as, its checksum included (R96). -/
theorem checkFrame_bytes {bytes : List Byte} {i : Instr} {c : Word} (h : checkFrame bytes = .ok (i, c)) :
    i.lengthByte = (bytes.getD 2 0).toNat ∧ bytes.take (i.lengthByte + 1) = frameBody i ∧
      bytes.take (i.lengthByte + 3) = withChecksum (frameBody i) := by
  obtain ⟨l, rest, hbytes, -, hrest, hc, hreceived, hi⟩ := decodeFrameWith_eq_ok h
  have hl : 2 ≤ l.toNat := two_le_of_checksum hbytes (hc.symm.trans hreceived)
  obtain ⟨k, hk⟩ : ∃ k, l.toNat = k + 2 := ⟨l.toNat - 2, by omega⟩
  have hbody : bytes.take (l.toNat + 1) = Config.magic0 :: Config.magic1 :: l :: rest.take k := by
    rw [hbytes, hk]; rfl
  rw [hbody] at hi
  obtain ⟨htail, hlength⟩ := classify_body (rest.take k)
  have hL : i.lengthByte = l.toNat := by
    rw [hi, List.drop_succ_cons, List.drop_succ_cons, List.drop_succ_cons, List.drop_zero, hlength, List.length_take]
    omega
  have hframe : bytes.take (l.toNat + 1) = frameBody i := by
    rw [hbody, frameBody, hL, BitVec.ofNat_toNat, BitVec.setWidth_eq, hi]
    exact congrArg (Config.magic0 :: Config.magic1 :: l :: ·) htail.symm
  have hcrc : crcBytes (frameBody i) = c := by rw [← hframe]; exact hc.symm
  refine ⟨by rw [hL, hbytes]; rfl, by rw [hL, hframe], ?_⟩
  have hlen : bytes.length = rest.length + 3 := congrArg List.length hbytes
  rw [hL, take_add_two (n := l.toNat + 1) (by omega), hframe, withChecksum, hcrc, hreceived, hiByte_be16, loByte_be16]

/-- Settles O6: what the checks accept is well formed, and its bytes are `checkFrame_bytes`. -/
theorem decodedFrameIsItsEncoding : Obligations.DecodedFrameIsItsEncoding := by
  unfold Obligations.DecodedFrameIsItsEncoding
  intro bytes i h
  obtain ⟨c, hcheck⟩ := checkFrame_of_decodeFrame h
  obtain ⟨hframe, hwf, -, hfits, -⟩ := checkFrame_ok hcheck
  obtain ⟨hlength, -, hbytes⟩ := checkFrame_bytes hcheck
  refine ⟨hwf, hframe, hlength, hfits, ?_⟩
  rw [encode_frame hframe, Nat.add_comm, hbytes]

/-- Settles O8: the decoder evaluated on each. -/
theorem writtenOutWordsDecode : Obligations.WrittenOutWordsDecode := by
  unfold Obligations.WrittenOutWordsDecode
  refine ⟨by decide, ?_, ?_, ?_, ?_, ?_⟩ <;> decide +kernel

end Sys2Proof.Machine
end

section
/-! PROOFS. The frame rows of the opcode table against the classification (O9). -/

namespace Sys2Proof.Machine

/-! ## The rows' conditions on a header -/

/-- The mask of the kind rows keeps the magic and the kind byte of a header (R106). -/
theorem headerWord_and_kindMask (l : Byte) (tail : List Byte) :
    headerWord (Config.magic0 :: Config.magic1 :: l :: tail) &&& 0xFFFF000000FF =
      0x4C5400000000 ||| (tail.getD 2 0).setWidth 48 := by
  have hor : ∀ x y m : BitVec 48, (x ||| y) &&& m = (x &&& m) ||| (y &&& m) := fun x y m => by
    ext; simp [Bool.and_or_distrib_right]
  have hlength : ∀ x : Byte, x.setWidth 48 <<< 24 &&& 0xFFFF000000FF = 0 := by decide
  have hdevId : ∀ x : Byte, x.setWidth 48 <<< 16 &&& 0xFFFF000000FF = 0 := by decide
  have hdevType : ∀ x : Byte, x.setWidth 48 <<< 8 &&& 0xFFFF000000FF = 0 := by decide
  have hkind : ∀ x : Byte, x.setWidth 48 &&& 0xFFFF000000FF = x.setWidth 48 := by decide
  have hmagic : (Config.magic0.setWidth 48 <<< 40 ||| Config.magic1.setWidth 48 <<< 32) &&& 0xFFFF000000FF =
      0x4C5400000000 := by decide
  simp only [headerWord, List.getD_cons_zero, List.getD_cons_succ]
  rw [hor, hor, hor, hor, hmagic, hlength, hdevId, hdevType, hkind]
  simp only [BitVec.ofNat_eq_ofNat, BitVec.or_zero]

/-- A kind row matches by the kind byte and the least length (R106). -/
theorem matchesHeader_of_kindMask {r : FrameRow} (k : Byte) (hmask : r.mask = 0xFFFF000000FF)
    (hpattern : r.pattern = 0x4C5400000000 ||| k.setWidth 48) (l : Byte) (tail : List Byte) :
    r.matchesHeader (Config.magic0 :: Config.magic1 :: l :: tail) =
      (tail.getD 2 0 == k && decide (r.minL ≤ l.toNat)) := by
  have hread : ∀ x : Byte, (0x4C5400000000 ||| x.setWidth 48 : BitVec 48).setWidth 8 = x := by decide
  have hkind (x : Byte) : (0x4C5400000000 ||| x.setWidth 48 : BitVec 48) = 0x4C5400000000 ||| k.setWidth 48 ↔ x = k :=
    ⟨fun h => by rw [← hread x, h, hread], fun h => by rw [h]⟩
  rw [FrameRow.matchesHeader, hmask, hpattern, headerWord_and_kindMask]
  simp only [beq_eq_decide, hkind, List.getD_cons_succ, List.getD_cons_zero]

theorem matchesHeader_status (l : Byte) (tail : List Byte) :
    FrameRow.matchesHeader ⟨"STATUS", 0x4C5400000003, 0xFFFF000000FF, 11, false⟩
      (Config.magic0 :: Config.magic1 :: l :: tail) =
        (tail.getD 2 0 == Config.kindStatus && decide (11 ≤ l.toNat)) :=
  matchesHeader_of_kindMask Config.kindStatus rfl (by decide) l tail

theorem matchesHeader_setack (l : Byte) (tail : List Byte) :
    FrameRow.matchesHeader ⟨"SETACK", 0x4C5400000002, 0xFFFF000000FF, 9, true⟩
      (Config.magic0 :: Config.magic1 :: l :: tail) =
        (tail.getD 2 0 == Config.kindSetack && decide (9 ≤ l.toNat)) :=
  matchesHeader_of_kindMask Config.kindSetack rfl (by decide) l tail

theorem matchesHeader_setcmd (l : Byte) (tail : List Byte) :
    FrameRow.matchesHeader ⟨"SETCMD", 0x4C5400000057, 0xFFFF000000FF, 0, false⟩
      (Config.magic0 :: Config.magic1 :: l :: tail) = (tail.getD 2 0 == Config.kindSetcmd) := by
  rw [matchesHeader_of_kindMask Config.kindSetcmd rfl (by decide) l tail, decide_eq_true (Nat.zero_le _),
    Bool.and_true]

/-- The row `OTHER` matches every frame (R106). -/
theorem matchesHeader_other (l : Byte) (tail : List Byte) :
    FrameRow.matchesHeader ⟨"OTHER", 0x4C5400000000, 0xFFFF00000000, 0, false⟩
      (Config.magic0 :: Config.magic1 :: l :: tail) = true := by
  have hmagic : ∀ k : Byte, (0x4C5400000000 ||| k.setWidth 48) &&& 0xFFFF00000000 = 0x4C5400000000 := by decide
  have hmask : (0xFFFF00000000 : BitVec 48) = 0xFFFF000000FF &&& 0xFFFF00000000 := by decide
  rw [FrameRow.matchesHeader, Bool.and_eq_true, beq_iff_eq, decide_eq_true_eq]
  refine ⟨?_, Nat.zero_le _⟩
  calc headerWord (Config.magic0 :: Config.magic1 :: l :: tail) &&& 0xFFFF00000000
      _ = headerWord (Config.magic0 :: Config.magic1 :: l :: tail) &&& 0xFFFF000000FF &&& 0xFFFF00000000 := by
        rw [BitVec.and_assoc, ← hmask]
      _ = 0x4C5400000000 := by rw [headerWord_and_kindMask, hmagic]

/-! ## The conditions of R176, by the kind byte and the length of a body -/

theorem bodyIsStatus_eq (body : List Byte) :
    bodyIsStatus body = (body.getD 2 0 == Config.kindStatus && decide (11 ≤ body.length + 2)) := by
  match body with
  | _ :: _ :: k :: payload =>
    simp only [bodyIsStatus, List.getD_cons_succ, List.getD_cons_zero, List.length_cons]
    congr 2
    rw [eq_iff_iff]
    omega
  | [] | [_] | [_, _] => rfl

theorem bodyIsSetack_eq (body : List Byte) :
    bodyIsSetack body =
      (body.getD 2 0 == Config.kindSetack && decide (9 ≤ body.length + 2) && fieldCodeNamed (body.getD 4 0)) := by
  match body with
  | _ :: _ :: k :: _ :: f :: _ :: _ :: surplus =>
    simp [bodyIsSetack]
  | [] | [_] | [_, _] | [_, _, _] | [_, _, _, _] | [_, _, _, _, _] | [_, _, _, _, _, _] => simp [bodyIsSetack]

theorem bodyIsSetcmd_eq (body : List Byte) : bodyIsSetcmd body = (body.getD 2 0 == Config.kindSetcmd) := by
  match body with
  | _ :: _ :: k :: _ => rfl
  | [] | [_] | [_, _] => rfl

/-- The name of the row that the body bytes 3 to `L` select, by the conditions of R176. -/
def rowOfBody (body : List Byte) : String :=
  if bodyIsStatus body then "STATUS"
  else if bodyIsSetack body then "SETACK"
  else if bodyIsSetcmd body then "SETCMD"
  else "OTHER"

/-- The classification is by these conditions (R176). -/
theorem classify_mnemonic (body : List Byte) : (classify body).mnemonic = rowOfBody body := by
  rcases classify_cases body with ⟨_, _, _, _, _, _, _, _, _, rfl, h⟩ | ⟨_, _, _, f, _, _, _, rfl, h⟩ |
    ⟨_, _, _, rfl, h⟩ | ⟨hother, h⟩
  · rw [h]; rfl
  · cases f <;> rfl
  · rw [h]
    simp [rowOfBody, bodyIsStatus_eq, bodyIsSetack_eq, bodyIsSetcmd, Config.kindStatus, Config.kindSetack,
      Config.kindSetcmd, Instr.mnemonic]
  · simp only [bodyIsOther, Bool.and_eq_true, Bool.not_eq_true'] at hother
    obtain ⟨⟨hstatus, hsetack⟩, hsetcmd⟩ := hother
    simp [h, rowOfBody, hstatus, hsetack, hsetcmd, Instr.mnemonic]

/-- The table's conditions on a frame are those of R176: the masks give the kind byte, `min_L` the least length. -/
theorem selectRow_frame {l : Byte} {tail : List Byte} (hl : l.toNat = tail.length + 2) :
    selectRow (Config.magic0 :: Config.magic1 :: l :: tail) = some (rowOfBody tail) := by
  simp only [selectRow, frameRows, List.find?_cons, matchesHeader_status, matchesHeader_setack, matchesHeader_setcmd,
    matchesHeader_other, FrameRow.extraCondition, List.getD_cons_succ, hl, Bool.not_false, Bool.not_true, Bool.true_or,
    Bool.false_or, Bool.and_true, ← bodyIsStatus_eq, ← bodyIsSetack_eq, ← bodyIsSetcmd_eq, rowOfBody]
  split_ifs <;> simp [*]

/-- By its header alone a set-acknowledge selects the row `SETACK`, whatever its field code (R106). -/
theorem find_matchesHeader_setack {l : Byte} {tail : List Byte} (hkind : tail.getD 2 0 = Config.kindSetack)
    (hl : 9 ≤ l.toNat) :
    frameRows.find? (fun r => r.matchesHeader (Config.magic0 :: Config.magic1 :: l :: tail)) =
      some ⟨"SETACK", 0x4C5400000002, 0xFFFF000000FF, 9, true⟩ := by
  have hne : (Config.kindSetack == Config.kindStatus) = false := rfl
  simp only [frameRows, List.find?_cons, matchesHeader_status, matchesHeader_setack, hkind, hne, Bool.false_and,
    beq_self_eq_true, hl, decide_true, Bool.and_true]

/-- Settles O9: both sides are `rowOfBody`; a code above 5 fails only the extra condition of its row. -/
theorem tableRowsAgreeWithTheClasses : Obligations.TableRowsAgreeWithTheClasses := by
  unfold Obligations.TableRowsAgreeWithTheClasses
  refine ⟨fun l tail hl => ?_, fun l devId devType r code argc value surplus hl hcode => ⟨?_, ?_⟩⟩
  · rw [classify_mnemonic]
    exact selectRow_frame hl
  · refine congrArg (Option.map (·.mnemonic)) (find_matchesHeader_setack (l := l) ?_ ?_)
    · rfl
    · omega
  · refine classify_of_other ?_
    have hunnamed : fieldCodeNamed code = false := decide_eq_false (by omega)
    simp [bodyIsOther, bodyIsStatus, bodyIsSetack, bodyIsSetcmd, hunnamed, Config.kindStatus, Config.kindSetcmd]

end Sys2Proof.Machine
end

section
/-! PROOFS. The frame a step runs: the validated candidate at the cursors by its kind (O29, O30, O31), and the instruction
`withFetchWord` places (O14). -/

namespace Sys2Proof.Machine

/-! ## The candidate at the cursors -/

theorem State.memRead_getD (s : State) (b : Buffer) {a n i : Nat} (h : i < n) :
    (s.memRead b a n).getD i 0 = s.peek b (a + i) := by
  rw [List.getD, s.memRead_getElem?, if_pos h, Option.getD_some]

/-- Bytes 3 to `l` of the candidate at the cursors (R78, R95). -/
def State.candidateBody (s : State) (l : Nat) : List Byte := s.memRead .scr (s.bcur.toNat + 3) (l - 2)

theorem State.candidateBody_length (s : State) (l : Nat) : (s.candidateBody l).length = l - 2 :=
  s.memRead_length .scr _ _

theorem State.candidateBody_getD (s : State) {l k : Nat} (h : k + 3 ≤ l) :
    (s.candidateBody l).getD k 0 = s.frameByte (k + 3) := by
  rw [State.candidateBody, s.memRead_getD .scr (by omega), State.frameByte, Nat.add_assoc, Nat.add_comm 3 k]

section
variable {s u : State} {l : Nat}

theorem Candidate.remainingBytes_eq (h : Candidate s l) :
    s.remainingBytes = Config.magic0 :: Config.magic1 :: s.frameByte 2 ::
      s.memRead .scr (s.bcur.toNat + 3) (s.nbytes - (s.bcur.toNat + 3)) := by
  have hfits : s.bcur.toNat + 3 + l ≤ s.nbytes := h.frameFits
  rw [State.remainingBytes,
    show s.nbytes - s.bcur.toNat = s.nbytes - (s.bcur.toNat + 3) + 1 + 1 + 1 by omega]
  simp only [State.memRead]
  rw [show s.peek .scr s.bcur.toNat = Config.magic0 from h.magicFirst,
    show s.peek .scr (s.bcur.toNat + 1) = Config.magic1 from h.magicSecond]
  rfl

/-- The received checksum that check 4 reads (R173). -/
theorem Candidate.received_eq (h : Candidate s l) :
    be16 (s.remainingBytes.getD (l + 1) 0) (s.remainingBytes.getD (l + 2) 0) =
      be16 (s.frameByte (l + 1)) (s.frameByte (l + 2)) := by
  have hfits : s.bcur.toNat + 3 + l ≤ s.nbytes := h.frameFits
  rw [State.remainingBytes, s.memRead_getD .scr (by omega), s.memRead_getD .scr (by omega)]
  rfl

/-- A candidate that passes the four checks is classified by its body (R169, R176). -/
theorem Candidate.examine_eq (h : Candidate s l) :
    s.examine = .ok (classify (s.candidateBody l), s.textCrc (l + 1)) := by
  have hfits : s.bcur.toNat + 3 + l ≤ s.nbytes := h.frameFits
  have henough := h.enoughText
  have hbody : (s.remainingBytes.take (l + 1)).drop 3 = s.candidateBody l := by
    rw [State.remainingBytes, State.memRead_take, State.memRead_drop, Nat.min_eq_left (by omega)]
    rfl
  have hcheck := decodeFrameWith_ok (n := s.remainingChars) (crcOf := s.textCrc) h.remainingBytes_eq
    (by rw [State.remainingChars, State.count]; omega)
    (by rw [h.lengthIs, State.memRead_length]; omega)
    (by rw [h.lengthIs, h.received_eq, h.checksumMatches])
  rwa [h.lengthIs, hbody] at hcheck

/-- The step that meets a validated candidate passes it, with its update of DeviceState if it has one (R174). -/
theorem Candidate.step_eq (h : Candidate s l) (ha : Advances s .frames u) (hl : 2 ≤ l) :
    step s = .next (u.passFrame (s.textCrc (l + 1)) (frameUpdate (classify (s.candidateBody l)) u.ds) l) := by
  have hlength : (classify (s.candidateBody l)).lengthByte = l := by
    rw [(classify_body _).2, s.candidateBody_length]; omega
  rw [stepRunsTheInstruction.2 s u _ _ ha h.examine_eq, exec_frame_eq_passFrame (classify_row _).1, hlength]

/-- In a good state no candidate with `L` below 2 passes check 4 (R175). -/
theorem Candidate.two_le (h : Candidate s l) (hgood : Inv s) (hp : s.phase = .running .frames) : 2 ≤ l := by
  have hfits : s.bcur.toNat + 3 + l ≤ s.nbytes := h.frameFits
  have htake : s.remainingBytes.take (l + 1) = s.memRead .scr s.bcur.toNat (l + 1) := by
    rw [State.remainingBytes, State.memRead_take, Nat.min_eq_left (by omega)]
  have hcrc := (hgood.inLoop hp).textCrc hgood.lockStep (n := l + 1) (by omega)
  have hl := two_le_of_checksum h.remainingBytes_eq
    (by rw [h.lengthIs, htake, ← hcrc, h.checksumMatches, h.received_eq])
  rwa [h.lengthIs] at hl

end

theorem State.passFrame_update (s : State) (c : Word) (d : DeviceState) (l : Nat) :
    s.passFrame c (some d) l = { s with
      crc := c, frames := s.frames + 1, notifs := s.notifs + 1, ds := d
      ntrace := s.ntrace ++ [d], ptrace := s.ptrace ++ [.notify]
      hcur := s.hcur + BitVec.ofNat 12 (2 * (3 + l)), bcur := s.bcur + BitVec.ofNat 11 (3 + l) } := by
  rw [State.passFrame_some]
  rfl

theorem State.passFrame_ignored (s : State) (c : Word) (l : Nat) :
    s.passFrame c none l = { s with
      crc := c, frames := s.frames + 1, ignored := s.ignored + 1
      hcur := s.hcur + BitVec.ofNat 12 (2 * (3 + l)), bcur := s.bcur + BitVec.ofNat 11 (3 + l) } := by
  rw [State.passFrame_none]
  rfl

/-- Settles O29: the body of the candidate is that of a status update. -/
theorem statusFrameInTheText : Obligations.StatusFrameInTheText := by
  unfold Obligations.StatusFrameInTheText
  rintro s u l d ha h hl hkind rfl
  obtain ⟨ins, rfl⟩ : ∃ ins, u = { s with inputs := ins } := ⟨_, ha.eq⟩
  obtain ⟨k, rfl⟩ := Nat.exists_eq_add_of_le' hl
  have hbody : s.candidateBody (k + 11) = s.frameByte 3 :: s.frameByte 4 :: Config.kindStatus :: s.frameByte 6 ::
      s.frameByte 7 :: s.frameByte 8 :: s.frameByte 9 :: s.frameByte 10 :: s.frameByte 11 ::
      s.memRead .scr (s.bcur.toNat + 12) k := by
    rw [show Config.kindStatus = s.frameByte 5 from hkind.symm]
    rfl
  rw [h.step_eq ha (by omega), hbody, classify_status, frameUpdate, State.passFrame_update]

theorem DeviceState.get_set (d : DeviceState) (f g : Setting) (v : Byte) :
    (d.set f v).get g = if g = f then some v else d.get g := by
  cases f <;> cases g <;> rfl

/-- Settles O30: the body of the candidate is that of a set-acknowledge update of the field. -/
theorem setackFrameInTheText : Obligations.SetackFrameInTheText := by
  unfold Obligations.SetackFrameInTheText
  intro s u l f ha h hl hkind hcode
  obtain ⟨ins, rfl⟩ : ∃ ins, u = { s with inputs := ins } := ⟨_, ha.eq⟩
  obtain ⟨k, rfl⟩ := Nat.exists_eq_add_of_le' hl
  have hbody : s.candidateBody (k + 9) = s.frameByte 3 :: s.frameByte 4 :: Config.kindSetack :: s.frameByte 6 ::
      fieldCode f :: s.frameByte 8 :: s.frameByte 9 :: s.memRead .scr (s.bcur.toNat + 10) k := by
    rw [show Config.kindSetack = s.frameByte 5 from hkind.symm, ← hcode]
    rfl
  refine ⟨s.ds.set f (s.frameByte 9), by rw [DeviceState.get_set, if_pos rfl],
    fun g hg => by rw [DeviceState.get_set, if_neg hg], ?_⟩
  rw [h.step_eq ha (by omega), hbody, classify_setack, frameUpdate, State.passFrame_update]

/-- A body that is no update leaves DeviceState alone (R181, R182). -/
theorem frameUpdate_classify_eq_none {body : List Byte} (hstatus : ¬bodyIsStatus body = true)
    (hsetack : ¬bodyIsSetack body = true) (d : DeviceState) : frameUpdate (classify body) d = none := by
  rcases classify_cases body with ⟨_, _, _, _, _, _, _, _, _, rfl, h⟩ | ⟨_, _, _, f, _, _, _, rfl, h⟩ |
    ⟨_, _, _, -, h⟩ | ⟨-, h⟩
  · exact absurd (by simp [bodyIsStatus]) hstatus
  · exact absurd (by cases f <;> rfl) hsetack
  · rw [h]; rfl
  · rw [h]; rfl

/-- Settles O31: the body of the candidate is that of no update. -/
theorem otherFramesAreOnlyCounted : Obligations.OtherFramesAreOnlyCounted := by
  unfold Obligations.OtherFramesAreOnlyCounted
  intro s u l hgood ha h hstatus hsetack
  have hl : 2 ≤ l := h.two_le hgood ha.1
  obtain ⟨ins, rfl⟩ : ∃ ins, u = { s with inputs := ins } := ⟨_, ha.eq⟩
  have hnone : frameUpdate (classify (s.candidateBody l)) s.ds = none := by
    refine frameUpdate_classify_eq_none (fun hb => hstatus ?_) (fun hb => hsetack ?_) s.ds
    · rw [bodyIsStatus_eq, Bool.and_eq_true, beq_iff_eq, decide_eq_true_eq, s.candidateBody_length] at hb
      obtain ⟨hkind, hlong⟩ := hb
      rw [s.candidateBody_getD (by omega)] at hkind
      exact ⟨by omega, hkind⟩
    · rw [bodyIsSetack_eq, Bool.and_eq_true, Bool.and_eq_true, beq_iff_eq, decide_eq_true_eq,
        s.candidateBody_length] at hb
      obtain ⟨⟨hkind, hlong⟩, hcode⟩ := hb
      rw [s.candidateBody_getD (by omega)] at hkind hcode
      exact ⟨by omega, hkind, of_decide_eq_true hcode⟩
  rw [h.step_eq ha hl, hnone, State.passFrame_ignored]

/-! ## The instruction `withFetchWord` places -/

theorem decode_of_decodeTableWord {nbits w : Nat} {i : Instr} (h : decodeTableWord nbits w = some i) :
    decode (encodedOfTableWord nbits w) = .ok i := by
  rw [decodeTableWord] at h
  split at h
  · next j hj => cases h; exact hj
  · cases h

theorem nib_hexdigit (lc : LowercaseHex) (x : BitVec 4) : nib lc (hexdigit x) = x := by
  revert x; cases lc <;> decide

theorem hexbyte_hexdigit (lc : LowercaseHex) (b : Byte) : hexbyte lc (hexdigit (hiNib b)) (hexdigit (loNib b)) = b := by
  rw [hexbyte, nib_hexdigit, nib_hexdigit]
  revert b; decide

/-- Decoding undoes encoding, whatever `LOWERCASE_HEX`: the digits are uppercase (R132). -/
theorem decText_encBytes (lc : LowercaseHex) (bytes : List Byte) : decText lc (encBytes bytes) = bytes := by
  induction bytes with
  | nil => rfl
  | cons b bytes ih => rw [encBytes, decText, hexbyte_hexdigit, ih]

/-- A header stands for at most the 258 bytes of a frame with `L` = 255 (R95). -/
theorem frameOfHeader_length_le (w : Nat) : (frameOfHeader w).length ≤ 258 := by
  have hl := (headerByte w 2).isLt
  unfold frameOfHeader
  dsimp only
  split
  · simp only [List.length_cons, List.length_nil]; omega
  · rw [withChecksum, List.length_append, List.length_take]
    simp only [List.length_cons, List.length_nil]
    omega

section
variable {bytes : List Byte}

theorem State.placeFrame_count (s : State) (hfit : bytes.length < 2048) :
    (s.placeFrame bytes).count = 2 * bytes.length :=
  (BitVec.toNat_ofNat ..).trans (Nat.mod_eq_of_lt (by omega))

theorem State.placeFrame_remainingBytes (s : State) (hfit : bytes.length < 2048) :
    (s.placeFrame bytes).remainingBytes = bytes := by
  rw [State.remainingBytes, State.nbytes, s.placeFrame_count hfit, Nat.mul_div_cancel_left _ (by decide)]
  calc (s.placeFrame bytes).memRead .scr 0 bytes.length
      _ = (s.memWrite .scr 0 bytes).memRead .scr 0 bytes.length :=
        State.memRead_congr fun _ _ => State.peek_congr rfl rfl _
      _ = bytes := s.memRead_memWrite_same .scr 0 bytes

theorem State.placeFrame_text (s : State) :
    (s.placeFrame bytes).memRead .rxbuf 0 (2 * bytes.length) = encBytes bytes := by
  rw [← encBytes_length]
  calc (s.placeFrame bytes).memRead .rxbuf 0 (encBytes bytes).length
      _ = ((s.memWrite .scr 0 bytes).memWrite .rxbuf 0 (encBytes bytes)).memRead .rxbuf 0 (encBytes bytes).length :=
        State.memRead_congr fun _ _ => State.peek_congr rfl rfl _
      _ = encBytes bytes := State.memRead_memWrite_same _ .rxbuf 0 _

/-- The checksum over the text of a placed frame is that of its bytes (R74, R173). -/
theorem State.placeFrame_textCrc (s : State) {k : Nat} (hk : k ≤ bytes.length) :
    (s.placeFrame bytes).textCrc k = crcBytes (bytes.take k) := by
  have htext : (s.placeFrame bytes).memRead .rxbuf 0 (2 * k) = (encBytes bytes).take (2 * k) := by
    rw [← s.placeFrame_text, State.memRead_take, Nat.min_eq_left (by omega)]
  calc (s.placeFrame bytes).textCrc k
      _ = crcBytes (decText (s.placeFrame bytes).lowercase ((s.placeFrame bytes).memRead .rxbuf 0 (2 * k))) := rfl
      _ = crcBytes (bytes.take k) := by rw [htext, decText_take, decText_encBytes]

/-- The checks on a placed frame are those on its bytes. -/
theorem State.placeFrame_examine (s : State) (hfit : bytes.length < 2048) :
    (s.placeFrame bytes).examine = checkFrame bytes := by
  rw [State.examine, s.placeFrame_remainingBytes hfit]
  refine decodeFrameWith_eq_checkFrame ?_ fun k hk => s.placeFrame_textCrc hk
  rw [State.remainingChars, s.placeFrame_count hfit]
  exact Nat.le_refl _

/-- The next step runs the placed frame (log 12). -/
theorem State.placeFrame_step (s : State) {i : Instr} (hfit : bytes.length < 2048) (hd : decodeFrame bytes = .ok i) :
    step (s.placeFrame bytes) =
        exec i { s.placeFrame bytes with inputs := s.inputs, crc := crcBytes (frameBody i) } ∧
      (s.placeFrame bytes).textCrc (i.lengthByte + 1) = crcBytes (frameBody i) := by
  obtain ⟨c, hcheck⟩ := checkFrame_of_decodeFrame hd
  obtain ⟨-, -, -, hfits, hc⟩ := checkFrame_ok hcheck
  obtain ⟨-, hbody, -⟩ := checkFrame_bytes hcheck
  rw [hbody] at hc
  have ha : Advances (s.placeFrame bytes) .frames { s.placeFrame bytes with inputs := s.inputs } :=
    ⟨rfl, .inr (.inl ⟨s.inputs, rfl, rfl⟩)⟩
  refine ⟨?_, by rw [s.placeFrame_textCrc (by omega), hbody]⟩
  rw [stepRunsTheInstruction.2 _ _ i c ha ((s.placeFrame_examine hfit).trans hcheck), hc]

end

/-- The next step runs the placed command word (log 12). -/
theorem State.placeCommand_step (s : State) {w : Word} {i : Instr} (hd : decodeCommand w = .ok i) :
    step (s.placeCommand w) = exec i { s with phase := .running (.operation w), held := none } :=
  stepRunsTheInstruction.1 _ _ w i ⟨rfl, .inr (.inl ⟨s.inputs, rfl, rfl⟩)⟩ hd

/-- Settles O14: what the table word stands for is placed, and the next step runs it. -/
theorem fetchWordRunsTheDecodedInstruction : Obligations.FetchWordRunsTheDecodedInstruction := by
  unfold Obligations.FetchWordRunsTheDecodedInstruction
  refine ⟨fun s w i h => ?_, fun s w i h => ?_⟩
  · exact s.placeCommand_step (decode_of_decodeTableWord h)
  · exact s.placeFrame_step (Nat.lt_of_le_of_lt (frameOfHeader_length_le w) (by decide)) (decode_of_decodeTableWord h)

end Sys2Proof.Machine
end

section
/-! PROOFS. The hex codec: its round trips and the normal form of a text (O37), and the three operations that decode and
encode the buffers (O17, O18, O19). -/

namespace Sys2Proof.Machine

/-! ## The normal form of a character and of a text -/

/-- The characters `hexdigit` produces: `0` to `9` and `A` to `F` (R132). -/
abbrev UpperDigit (c : Byte) : Prop := (0x30 ≤ c.toNat ∧ c.toNat ≤ 0x39) ∨ (0x41 ≤ c.toNat ∧ c.toNat ≤ 0x46)

/-- What a character becomes when it is decoded and encoded again: itself, its uppercase form, or `0` (R134). -/
def normalDigit (lc : LowercaseHex) (c : Byte) : Byte :=
  if UpperDigit c then c
  else if 0x61 ≤ c.toNat ∧ c.toNat ≤ 0x66 ∧ lc = .accept then c - 0x20 else 0x30

theorem normalDigit_of_upperDigit (lc : LowercaseHex) {c : Byte} (h : UpperDigit c) : normalDigit lc c = c := if_pos h

theorem hexdigit_upperDigit (x : BitVec 4) : UpperDigit (hexdigit x) := by
  revert x; decide

/-- The digit of a character's value is the character's normal form (R94, R132). -/
theorem hexdigit_nib (lc : LowercaseHex) (c : Byte) : hexdigit (nib lc c) = normalDigit lc c := by
  revert c; cases lc <;> decide

theorem normalDigit_upperDigit (lc : LowercaseHex) (c : Byte) : UpperDigit (normalDigit lc c) := by
  rw [← hexdigit_nib]
  exact hexdigit_upperDigit _

/-- The upper nibble of a decoded pair is the value of its first character (R62). -/
theorem hiNib_hexbyte (lc : LowercaseHex) (h l : Byte) : hiNib (hexbyte lc h l) = nib lc h := by
  have hpair : ∀ x y : BitVec 4, hiNib (x.setWidth 8 <<< 4 ||| y.setWidth 8) = x := by decide
  exact hpair (nib lc h) (nib lc l)

/-- The lower nibble of a decoded pair is the value of its second character (R62). -/
theorem loNib_hexbyte (lc : LowercaseHex) (h l : Byte) : loNib (hexbyte lc h l) = nib lc l := by
  have hpair : ∀ x y : BitVec 4, loNib (x.setWidth 8 <<< 4 ||| y.setWidth 8) = y := by decide
  exact hpair (nib lc h) (nib lc l)

/-- Encoding a decoded text drops an odd last character and normalises every other one (R134). -/
theorem encBytes_decText (lc : LowercaseHex) (t : List Byte) :
    encBytes (decText lc t) = (t.take (2 * (t.length / 2))).map (normalDigit lc) := by
  induction t using decText.induct with
  | case1 h l t ih =>
    have hpairs : 2 * ((h :: l :: t).length / 2) = 2 * (t.length / 2) + 1 + 1 := by
      simp only [List.length_cons]; omega
    rw [hpairs, decText, encBytes, hiNib_hexbyte, loNib_hexbyte, hexdigit_nib, hexdigit_nib, ih]
    rfl
  | case2 => simp [decText, encBytes]
  | case3 => rfl

/-- The texts that survive decoding and encoding are those of whole pairs of uppercase digits (R134). -/
theorem encBytes_decText_eq_self_iff (lc : LowercaseHex) (t : List Byte) :
    encBytes (decText lc t) = t ↔ t.length % 2 = 0 ∧ ∀ c ∈ t, UpperDigit c := by
  constructor
  · intro heq
    refine ⟨?_, fun c hc => ?_⟩
    · have hlen := congrArg List.length heq
      rw [encBytes_length, decText_length] at hlen
      omega
    · rw [← heq, encBytes_decText] at hc
      obtain ⟨d, -, rfl⟩ := List.mem_map.mp hc
      exact normalDigit_upperDigit lc d
  · rintro ⟨heven, hupper⟩
    calc encBytes (decText lc t)
        _ = t.map (normalDigit lc) := by rw [encBytes_decText, List.take_of_length_le (by omega)]
        _ = t.map id := List.map_congr_left fun c hc => normalDigit_of_upperDigit lc (hupper c hc)
        _ = t := List.map_id t

/-- Settles O37: the two round trips by induction on the text, the normal form character by character. -/
theorem codecRoundTripLaws : Obligations.CodecRoundTripLaws := by
  unfold Obligations.CodecRoundTripLaws
  refine ⟨decText_encBytes, encBytes_decText_eq_self_iff, encBytes_decText, fun lc => ?_, nib_hexdigit⟩
  cases lc <;> exact ⟨rfl, rfl, rfl⟩

/-! ## The range checks of the codec operations -/

/-- The refusal with code 2 (R231, R232). -/
theorem State.refuse_lenRange (s : State) :
    s.refuse .lenRange = { s with status := 0x5, phase := .idle, ptrace := s.ptrace ++ [.done] } := rfl

/-- A text above the capacity of `RXBUF` is refused by each operation on text (R231). -/
theorem refusalOf_textTooLong {i : Instr} {s : State} (hi : i = .hexdec ∨ i = .crc16 ∨ i = .parse)
    (hlen : Config.rxCap < s.len.toNat) : refusalOf i s = some .lenRange := by
  have hfit : ¬s.textFits = true := fun h => absurd (State.textFits_iff.mp h) (by omega)
  obtain rfl | rfl | rfl := hi <;> exact if_neg hfit

/-- More bytes than `SCR` holds are refused by `HEXENC` (R231). -/
theorem refusalOf_bytesTooLong {s : State} (hlen : Config.scrCap < s.len.toNat) :
    refusalOf .hexenc s = some .lenRange :=
  if_neg fun h => absurd (State.bytesFit_iff.mp h) (by omega)

/-! ## The produced text -/

/-- What `TXBUF` holds after a text was produced: the text, then the old content (R43). -/
theorem State.produceText_peek (s : State) (text : List Byte) (c : Word) (n : BitVec 12) (a : Nat) :
    (s.produceText text c n).peek .txbuf a = if a < text.length then text.getD a 0 else s.peek .txbuf a := by
  have hwrite := s.peek_memWrite .txbuf .txbuf 0 a text
  simp only [true_and, Nat.zero_le, Nat.zero_add, Nat.sub_zero] at hwrite
  exact hwrite

theorem State.produceText_peek_below (s : State) {text : List Byte} (c : Word) (n : BitVec 12) {a : Nat}
    (h : a < text.length) : (s.produceText text c n).peek .txbuf a = text.getD a 0 := by
  rw [s.produceText_peek, if_pos h]

theorem State.produceText_peek_above (s : State) {text : List Byte} (c : Word) (n : BitVec 12) {a : Nat}
    (h : text.length ≤ a) : (s.produceText text c n).peek .txbuf a = s.peek .txbuf a := by
  rw [s.produceText_peek, if_neg (by omega)]

/-- The two characters of each encoded byte, upper nibble first (R132). -/
theorem encBytes_getD {bytes : List Byte} {i : Nat} (h : i < bytes.length) :
    (encBytes bytes).getD (2 * i) 0 = hexdigit (hiNib (bytes.getD i 0)) ∧
      (encBytes bytes).getD (2 * i + 1) 0 = hexdigit (loNib (bytes.getD i 0)) := by
  induction bytes generalizing i with
  | nil => cases h
  | cons b bytes ih =>
    cases i with
    | zero => exact ⟨rfl, rfl⟩
    | succ i =>
      rw [Nat.mul_succ]
      exact ih (Nat.lt_of_succ_lt_succ h)

/-- A bit field of a bit field that covers it is a bit field of the whole. -/
theorem extractLsb'_of_extractLsb' {w a b m n : Nat} (v : BitVec w) (h : b + n ≤ m) :
    (v.extractLsb' a m).extractLsb' b n = v.extractLsb' (a + b) n := by
  ext i hi
  have hin : b + i < m := by omega
  simp only [BitVec.getElem_extractLsb', BitVec.getLsbD_extractLsb', hin, decide_true, Bool.true_and, Nat.add_assoc]

/-- The four digits of a 16-bit value, most significant first (R133). -/
theorem encBe16_eq (v : Word) :
    encBe16 v = [hexdigit (v.extractLsb' 12 4), hexdigit (v.extractLsb' 8 4), hexdigit (v.extractLsb' 4 4),
      hexdigit (v.extractLsb' 0 4)] := by
  have h15to12 : hiNib (hiByte v) = v.extractLsb' 12 4 := extractLsb'_of_extractLsb' v (by decide)
  have h11to8 : loNib (hiByte v) = v.extractLsb' 8 4 := extractLsb'_of_extractLsb' v (by decide)
  have h7to4 : hiNib (loByte v) = v.extractLsb' 4 4 := extractLsb'_of_extractLsb' v (by decide)
  have h3to0 : loNib (loByte v) = v.extractLsb' 0 4 := extractLsb'_of_extractLsb' v (by decide)
  simp only [encBe16, encBytes, h15to12, h11to8, h7to4, h3to0]

theorem State.bytesOperand_length (s : State) : s.bytesOperand.length = s.len.toNat := s.memRead_length .scr 0 _

theorem State.bytesOperand_getD (s : State) {i : Nat} (h : i < s.len.toNat) :
    s.bytesOperand.getD i 0 = s.peek .scr i :=
  (s.memRead_getD .scr h).trans (by rw [Nat.zero_add])

/-! ## The three operations -/

/-- Settles O17: the effect is `decodeText`, whose laws give `SCR` and `OUTLEN`. -/
theorem hexdecDecodesTheText : Obligations.HexdecDecodesTheText := by
  unfold Obligations.HexdecDecodesTheText
  refine ⟨rfl, fun s => ⟨fun hlen => ?_, fun hlen => ?_⟩⟩
  · rw [exec_refused (refusalOf_textTooLong (.inl rfl) hlen), s.refuse_lenRange]
  · have heffect : Effect .hexdec s s.decodeText.emitDone := .hexdec (State.textFits_iff.mpr hlen)
    exact ⟨_, heffect.exec_eq, s.decodeText_peek, s.decodeText_peek_above, s.decodeText_outlen_toNat, rfl⟩

/-- Settles O18: the effect is a produced text, two characters for each byte of the operand. -/
theorem hexencEncodesTheBytes : Obligations.HexencEncodesTheBytes := by
  unfold Obligations.HexencEncodesTheBytes
  refine ⟨rfl, fun s => ⟨fun hlen => ?_, fun hlen => ?_⟩⟩
  · rw [exec_refused (refusalOf_bytesTooLong hlen), s.refuse_lenRange]
  · have heffect : Effect .hexenc s _ := .hexenc (State.bytesFit_iff.mpr hlen)
    have htext : (encBytes s.bytesOperand).length = 2 * s.len.toNat := by rw [encBytes_length, s.bytesOperand_length]
    refine ⟨_, heffect.exec_eq, fun i hi => ?_, fun a ha => ?_, ?_, rfl⟩
    · obtain ⟨hupper, hlower⟩ := encBytes_getD (hi.trans_eq s.bytesOperand_length.symm)
      rw [s.bytesOperand_getD hi] at hupper hlower
      exact ⟨(s.produceText_peek_below _ _ (by omega)).trans hupper,
        (s.produceText_peek_below _ _ (by omega)).trans hlower⟩
    · exact s.produceText_peek_above _ _ (by omega)
    · show (s.len <<< 1).toNat = 2 * s.len.toNat
      rw [BitVec.toNat_shiftLeft, Nat.shiftLeft_eq]
      omega

/-- Settles O19: the effect is a produced text, the four digits of `encBe16_eq`. -/
theorem hexenc16WritesFourDigits : Obligations.Hexenc16WritesFourDigits := by
  unfold Obligations.Hexenc16WritesFourDigits
  refine ⟨rfl, fun s => ?_⟩
  have heffect : Effect .hexenc16 s _ := .hexenc16
  have hdigit {a : Nat} (ha : a < 4) :
      (s.produceText (encBe16 s.val) s.crc 4).peek .txbuf a = (encBe16 s.val).getD a 0 :=
    s.produceText_peek_below _ _ ha
  rw [encBe16_eq] at hdigit heffect
  exact ⟨_, heffect.exec_eq, hdigit (by decide), hdigit (by decide), hdigit (by decide), hdigit (by decide),
    fun a ha => s.produceText_peek_above _ _ ha, rfl⟩

end Sys2Proof.Machine
end

section
/-! PROOFS. The CRC-16/XMODEM generator: linearity and injectivity of the register step (O38), the zero residue of a
checksummed sequence (O39), what a changed digit does (O40), and the operation `CRC16` (O20). -/

namespace Sys2Proof.Machine

/-! ## The register step is linear over exclusive or -/

/-- One iteration as a sum of two linear parts: the shift, and the polynomial where bit 15 is set (R150). -/
theorem crcShift_eq_xor (r : Word) : crcShift r = r <<< 1 ^^^ (if r.msb then Config.crcPoly else 0) := by
  unfold crcShift
  split
  · rfl
  · exact (BitVec.xor_zero).symm

theorem crcShift_xor (x y : Word) : crcShift (x ^^^ y) = crcShift x ^^^ crcShift y := by
  have hpoly : (if (x ^^^ y).msb then Config.crcPoly else 0) =
      (if x.msb then Config.crcPoly else 0) ^^^ (if y.msb then Config.crcPoly else 0) := by
    rw [BitVec.msb_xor]
    cases x.msb <;> cases y.msb <;> rfl
  rw [crcShift_eq_xor, crcShift_eq_xor x, crcShift_eq_xor y, hpoly, BitVec.shiftLeft_xor_distrib]
  ac_rfl

theorem crcShifts_xor (n : Nat) (x y : Word) : crcShifts n (x ^^^ y) = crcShifts n x ^^^ crcShifts n y := by
  induction n generalizing x y with
  | zero => rfl
  | succ n ih => rw [crcShifts, crcShift_xor, ih]; rfl

theorem crcStep_xor (r₁ r₂ : Word) (b₁ b₂ : Byte) :
    crcStep (r₁ ^^^ r₂) (b₁ ^^^ b₂) = crcStep r₁ b₁ ^^^ crcStep r₂ b₂ := by
  have hsum : r₁ ^^^ r₂ ^^^ (b₁ ^^^ b₂).setWidth 16 <<< 8 =
      (r₁ ^^^ b₁.setWidth 16 <<< 8) ^^^ (r₂ ^^^ b₂.setWidth 16 <<< 8) := by
    rw [BitVec.setWidth_xor, BitVec.shiftLeft_xor_distrib]
    ac_rfl
  rw [crcStep, hsum, crcShifts_xor]
  rfl

theorem crcStep_zero_zero : crcStep 0 0 = 0 := rfl

/-- Zero bytes leave a zero register (R153 (a)). -/
theorem crcBytes_replicate_zero (n : Nat) : crcBytes (List.replicate n 0) = 0 := by
  induction n with
  | zero => rfl
  | succ n ih =>
    calc crcBytes (List.replicate (n + 1) 0)
        _ = crcFold (crcStep 0 0) (List.replicate n 0) := rfl
        _ = 0 := by rw [crcStep_zero_zero]; exact ih

/-- Settles O38: an iteration is a shift plus a multiple of the polynomial, both linear, and the step composes eight. -/
theorem crcStepIsLinear : Obligations.CrcStepIsLinear := by
  unfold Obligations.CrcStepIsLinear
  exact ⟨crcStep_xor, by decide, crcBytes_replicate_zero⟩

/-! ## The register step loses nothing -/

/-- The kernel of one iteration is trivial: the polynomial sets bit 0, which the shift leaves 0, and without the
polynomial the bit shifted out was 0. -/
theorem eq_zero_of_crcShift_eq_zero {r : Word} (h : crcShift r = 0) : r = 0 := by
  rw [crcShift_eq_xor] at h
  cases hmsb : r.msb with
  | true =>
    have hbit : (r <<< 1 ^^^ Config.crcPoly).getLsbD 0 = true := by simp [Config.crcPoly]
    rw [hmsb, if_pos rfl] at h
    rw [h] at hbit
    cases hbit
  | false =>
    have hlt : r.toNat < 2 ^ 15 := BitVec.toNat_lt_of_msb_false hmsb
    have hshift : (r <<< 1).toNat = 0 := by simpa [hmsb] using congrArg BitVec.toNat h
    rw [BitVec.toNat_shiftLeft, Nat.shiftLeft_eq] at hshift
    have hnat : r.toNat = 0 := by omega
    exact BitVec.eq_of_toNat_eq hnat

theorem crcShift_injective : Function.Injective crcShift := fun x y h =>
  BitVec.xor_eq_zero_iff.mp (eq_zero_of_crcShift_eq_zero ((crcShift_xor x y).trans (BitVec.xor_eq_zero_iff.mpr h)))

theorem crcShifts_injective (n : Nat) : Function.Injective (crcShifts n) := by
  induction n with
  | zero => exact Function.injective_id
  | succ n ih => exact ih.comp crcShift_injective

/-- With the byte fixed, the step is injective in the register. -/
theorem crcStep_register_injective (b : Byte) : Function.Injective fun r => crcStep r b := fun _ _ h =>
  (BitVec.xor_left_inj _).mp (crcShifts_injective 8 h)

/-- With the register fixed, the step is injective in the byte. -/
theorem crcStep_byte_injective (r : Word) : Function.Injective (crcStep r) := fun b c h => by
  have hupper : be16 b 0 = be16 c 0 :=
    congrArg (· ||| (0 : Byte).setWidth 16) ((BitVec.xor_right_inj r).mp (crcShifts_injective 8 h))
  rw [← hiByte_be16 b 0, hupper, hiByte_be16]

/-- Whatever bytes follow, different registers stay different. -/
theorem crcFold_injective (s : List Byte) : Function.Injective fun r => crcFold r s := by
  induction s with
  | nil => exact Function.injective_id
  | cons b s ih => exact ih.comp (crcStep_register_injective b)

/-! ## The residue of a checksummed sequence -/

/-- While no set bit reaches bit 15, iterations are a plain left shift. -/
theorem crcShifts_eq_shiftLeft {n : Nat} {r : Word} (h : r.toNat * 2 ^ n < 2 ^ 16) : crcShifts n r = r <<< n := by
  induction n generalizing r with
  | zero => exact (BitVec.shiftLeft_zero r).symm
  | succ n ih =>
    have hpos : 0 < 2 ^ n := Nat.two_pow_pos n
    rw [Nat.pow_succ', ← Nat.mul_assoc] at h
    have hdouble : r.toNat * 2 < 2 ^ 16 := Nat.lt_of_le_of_lt (Nat.le_mul_of_pos_right _ hpos) h
    have hmsb : r.msb = false := BitVec.msb_eq_false_iff_two_mul_lt.mpr (by omega)
    have hshift : (r <<< 1).toNat = r.toNat * 2 := by
      rw [BitVec.toNat_shiftLeft, Nat.shiftLeft_eq, Nat.pow_one, Nat.mod_eq_of_lt hdouble]
    calc crcShifts (n + 1) r
        _ = crcShifts n (r <<< 1) := by rw [crcShifts, crcShift, hmsb]; rfl
        _ = r <<< 1 <<< n := ih (by rwa [hshift])
        _ = r <<< (n + 1) := by rw [← BitVec.shiftLeft_add, Nat.add_comm]

theorem crcShifts_lowByte (b : Byte) : crcShifts 8 (b.setWidth 16) = b.setWidth 16 <<< 8 := by
  have hlt := b.isLt
  refine crcShifts_eq_shiftLeft ?_
  rw [BitVec.toNat_setWidth, Nat.mod_eq_of_lt (by omega)]
  omega

/-- The two bytes of a 16-bit number do not overlap, so they add without carry. -/
theorem be16_eq_xor (hi lo : Byte) : be16 hi lo = hi.setWidth 16 <<< 8 ^^^ lo.setWidth 16 := by
  apply BitVec.eq_of_getLsbD_eq
  intro i hi
  by_cases h : i < 8
  · simp [be16, h]
  · simp [be16, h, BitVec.getLsbD_of_ge lo i (by omega)]

/-- Folding in the upper byte of the register cancels it and moves the lower byte up. -/
theorem crcStep_be16 (hi lo : Byte) : crcStep (be16 hi lo) hi = lo.setWidth 16 <<< 8 := by
  have hcancel : be16 hi lo ^^^ hi.setWidth 16 <<< 8 = lo.setWidth 16 := by
    rw [be16_eq_xor, BitVec.xor_comm, ← BitVec.xor_assoc, BitVec.xor_self, BitVec.zero_xor]
  rw [crcStep, hcancel, crcShifts_lowByte]

/-- Folding both bytes of a register's value into it gives 0 (R155). -/
theorem crcStep_crcStep_be16 (hi lo : Byte) : crcStep (crcStep (be16 hi lo) hi) lo = 0 := by
  rw [crcStep_be16, crcStep, BitVec.xor_self]
  rfl

/-- Two more bytes give the residue 0 exactly when they are the checksum: they cancel that register, and by
injectivity no other (R155). -/
theorem crcBytes_append_eq_zero_iff (body : List Byte) (hi lo : Byte) :
    crcBytes (body ++ [hi, lo]) = 0 ↔ crcBytes body = be16 hi lo := by
  have hfold : crcBytes (body ++ [hi, lo]) = crcFold (crcBytes body) [hi, lo] := crcFold_append _ _ _
  have hzero : crcFold (be16 hi lo) [hi, lo] = 0 := crcStep_crcStep_be16 hi lo
  rw [hfold, ← hzero]
  exact (crcFold_injective [hi, lo]).eq_iff

theorem crcBytes_withChecksum (s : List Byte) : crcBytes (withChecksum s) = 0 :=
  (crcBytes_append_eq_zero_iff s _ _).mpr (be16_hi_lo _).symm

/-- The text of a body followed by the four digits of its checksum has CRC 0. -/
theorem crcText_checksummed (lc : LowercaseHex) (body : List Byte) :
    crcText lc (encBytes body ++ encBe16 (crcBytes body)) = 0 := by
  rw [encBe16, ← encBytes_append, crcText, decText_encBytes]
  exact crcBytes_withChecksum body

/-- Settles O39: the residue is 0 exactly for the checksum; the source's frame is the text `BUILDSET` builds for
brightness 50. -/
theorem checksumLeavesZeroResidue : Obligations.ChecksumLeavesZeroResidue := by
  unfold Obligations.ChecksumLeavesZeroResidue
  refine ⟨crcBytes_withChecksum, crcBytes_append_eq_zero_iff, fun lc => ?_⟩
  exact (congrArg (crcText lc) (by decide +kernel)).trans (crcText_checksummed lc (setBody .bright 50))

/-! ## A changed digit -/

/-- A pair is determined by the values of its two characters (R62). -/
theorem hexbyte_eq_iff (lc : LowercaseHex) (h l h' l' : Byte) :
    hexbyte lc h l = hexbyte lc h' l' ↔ nib lc h = nib lc h' ∧ nib lc l = nib lc l' := by
  constructor
  · intro heq
    have hhi := congrArg hiNib heq
    have hlo := congrArg loNib heq
    rw [hiNib_hexbyte, hiNib_hexbyte] at hhi
    rw [loNib_hexbyte, loNib_hexbyte] at hlo
    exact ⟨hhi, hlo⟩
  · rintro ⟨hhi, hlo⟩
    rw [hexbyte, hhi, hlo]
    rfl

/-- A character of the same value decodes to the same bytes (R94). -/
theorem decText_set_of_nib_eq {lc : LowercaseHex} {t : List Byte} {k : Nat} {c : Byte}
    (hnib : nib lc c = nib lc (t.getD k 0)) : decText lc (t.set k c) = decText lc t := by
  induction t using decText.induct generalizing k with
  | case1 h l t ih =>
    match k with
    | 0 => exact congrArg (· :: decText lc t) ((hexbyte_eq_iff lc c l h l).mpr ⟨hnib, rfl⟩)
    | 1 => exact congrArg (· :: decText lc t) ((hexbyte_eq_iff lc h c h l).mpr ⟨rfl, hnib⟩)
    | k + 2 => exact congrArg (hexbyte lc h l :: ·) (ih hnib)
  | case2 x => cases k <;> rfl
  | case3 => rfl

/-- A first byte that differs makes every fold differ, whatever follows. -/
theorem crcFold_cons_ne {b c : Byte} (hne : b ≠ c) (r : Word) (s : List Byte) :
    crcFold r (b :: s) ≠ crcFold r (c :: s) := fun h =>
  hne (crcStep_byte_injective r (crcFold_injective s h))

/-- A character of another value, in a whole pair, changes the fold from any register: the pair's byte changes, and the
fold loses no difference (R156). -/
theorem crcFold_decText_set_ne {lc : LowercaseHex} {t : List Byte} {k : Nat} {c : Byte} (heven : t.length % 2 = 0)
    (hk : k < t.length) (hnib : nib lc c ≠ nib lc (t.getD k 0)) (r : Word) :
    crcFold r (decText lc (t.set k c)) ≠ crcFold r (decText lc t) := by
  induction t using decText.induct generalizing k r with
  | case1 h l t ih =>
    simp only [List.length_cons] at heven hk
    match k with
    | 0 => exact crcFold_cons_ne (fun heq => hnib ((hexbyte_eq_iff lc c l h l).mp heq).1) r _
    | 1 => exact crcFold_cons_ne (fun heq => hnib ((hexbyte_eq_iff lc h c h l).mp heq).2) r _
    | k + 2 => exact ih (by omega) (by omega) hnib (crcStep r (hexbyte lc h l))
  | case2 x => cases heven
  | case3 => cases hk

/-- Settles O40: by induction on the text, pair by pair, from any register. -/
theorem oneChangedDigitChangesTheCrc : Obligations.OneChangedDigitChangesTheCrc := by
  unfold Obligations.OneChangedDigitChangesTheCrc
  refine ⟨fun lc t k c heven hk hnib => ?_, fun lc t k c hnib => ?_⟩
  · exact crcFold_decText_set_ne heven hk hnib Config.crcInit
  · exact congrArg crcBytes (decText_set_of_nib_eq hnib)

/-! ## The operation -/

theorem crcFold_eq_foldl (r : Word) (s : List Byte) : crcFold r s = s.foldl crcStep r := by
  induction s generalizing r with
  | nil => rfl
  | cons b s ih => exact ih (crcStep r b)

/-- The bytes of the text operand, pair by pair in rising order; an odd last character is not used (R66). -/
theorem State.decText_textOperand (s : State) :
    decText s.lowercase s.textOperand =
      (List.range (s.len.toNat / 2)).map fun i =>
        hexbyte s.lowercase (s.peek .rxbuf (2 * i)) (s.peek .rxbuf (2 * i + 1)) := by
  have hlen : s.textOperand.length = s.len.toNat := s.memRead_length .rxbuf 0 _
  have hchar {i : Nat} (hi : i < s.len.toNat) : s.textOperand.getD i 0 = s.peek .rxbuf i :=
    (s.memRead_getD .rxbuf hi).trans (by rw [Nat.zero_add])
  apply List.ext_getElem?
  intro i
  rw [decText_getElem?, hlen, List.getElem?_map]
  by_cases hi : 2 * i + 1 < s.len.toNat
  · rw [if_pos hi, hchar hi, hchar (by omega), List.getElem?_range (by omega)]
    rfl
  · rw [if_neg hi, List.getElem?_eq_none (by rw [List.length_range]; omega)]
    rfl

/-- The value `CRC16` leaves in `CRC`, as the loop of R154. -/
theorem State.crcText_textOperand (s : State) :
    crcText s.lowercase s.textOperand =
      (List.range (s.len.toNat / 2)).foldl
        (fun r i => crcStep r (hexbyte s.lowercase (s.peek .rxbuf (2 * i)) (s.peek .rxbuf (2 * i + 1)))) 0 := by
  rw [crcText, crcBytes, crcFold_eq_foldl, s.decText_textOperand, List.foldl_map]
  rfl

/-- Settles O20: the effect sets `CRC` to the CRC of the text operand, which is the loop of R154. -/
theorem crc16FoldsTheText : Obligations.Crc16FoldsTheText := by
  unfold Obligations.Crc16FoldsTheText
  refine ⟨rfl, fun s => ⟨fun hlen => ?_, fun hlen => ?_⟩⟩
  · rw [exec_refused (refusalOf_textTooLong (.inr (.inl rfl)) hlen), s.refuse_lenRange]
  · have heffect : Effect .crc16 s _ := .crc16 (State.textFits_iff.mpr hlen)
    rw [← s.crcText_textOperand]
    exact heffect.exec_eq

end Sys2Proof.Machine
end

section
/-! PROOFS. The frame parser: its start (O21), the effect of each kind of frame (O28), the stop at the first failed
check (O32), the shortest frame (O33), the bound on the steps of an operation (O23), and the laws of a parse as a
function of the text and of DeviceState (O35, O36). -/

namespace Sys2Proof.Machine

/-! ## The start of `PARSE` -/

/-- Settles O21: the effect is the cleared results, then `decodeText`, whose laws give `SCR` and `OUTLEN`. -/
theorem parseStartsFromCleanResults : Obligations.ParseStartsFromCleanResults := by
  unfold Obligations.ParseStartsFromCleanResults
  refine ⟨rfl, fun s => ⟨fun hlen => ?_, fun hlen => ?_⟩⟩
  · rw [exec_refused (refusalOf_textTooLong (.inr (.inr rfl)) hlen), s.refuse_lenRange]
  · have heffect : Effect .parse s s.clearParse.decodeText.enterLoop := .parse (State.textFits_iff.mpr hlen)
    exact ⟨_, heffect.exec_eq, s.clearParse.decodeText_peek, s.clearParse.decodeText_peek_above,
      s.decodeText_outlen_toNat, rfl⟩

/-! ## The effect of a frame -/

section
variable {i : Instr} {s : State} {n : Nat}

/-- Without a new checksum a frame is passed all the same. -/
theorem exec_frame_keeps_crc (hf : i.isFrame = true) :
    exec i s = .next (s.passFrame s.crc (frameUpdate i s.ds) i.lengthByte) :=
  exec_frame_eq_passFrame hf s s.crc

/-- A frame of `n` bytes that updates DeviceState, field by field (R174, R183). -/
theorem exec_frame_of_update {d : DeviceState} (hf : i.isFrame = true) (hu : frameUpdate i s.ds = some d)
    (hn : 3 + i.lengthByte = n) :
    exec i s = .next { s with
      frames := s.frames + 1, notifs := s.notifs + 1, ds := d
      ntrace := s.ntrace ++ [d], ptrace := s.ptrace ++ [.notify]
      hcur := s.hcur + BitVec.ofNat 12 (2 * n), bcur := s.bcur + BitVec.ofNat 11 n } := by
  rw [exec_frame_keeps_crc hf, hu, s.passFrame_update, hn]

/-- A frame of `n` bytes that is ignored, field by field (R174, R182). -/
theorem exec_frame_of_ignored (hf : i.isFrame = true) (hu : frameUpdate i s.ds = none) (hn : 3 + i.lengthByte = n) :
    exec i s = .next { s with
      frames := s.frames + 1, ignored := s.ignored + 1
      hcur := s.hcur + BitVec.ofNat 12 (2 * n), bcur := s.bcur + BitVec.ofNat 11 n } := by
  rw [exec_frame_keeps_crc hf, hu, s.passFrame_ignored, hn]

end

/-- Settles O28: `STATUS` and `SETACK` have an update, the other two kinds have none. -/
theorem framesHaveTheirEffect : Obligations.FramesHaveTheirEffect := by
  unfold Obligations.FramesHaveTheirEffect
  refine ⟨fun devId devType p c b t h v surplus s => ?_, fun devId devType r f argc v surplus s => ?_,
    fun devId devType payload s => ?_, fun body s => ?_⟩
  · exact exec_frame_of_update rfl rfl (by rw [Instr.lengthByte]; omega)
  · exact ⟨s.ds.set f v, exec_frame_of_update rfl rfl (by rw [Instr.lengthByte]; omega),
      by rw [DeviceState.get_set, if_pos rfl], fun g hg => by rw [DeviceState.get_set, if_neg hg]⟩
  · exact exec_frame_of_ignored rfl rfl (by rw [Instr.lengthByte]; omega)
  · exact exec_frame_of_ignored rfl rfl (by rw [Instr.lengthByte]; omega)

/-! ## The checks that fail -/

section
variable {n : Nat} {crcOf : Nat → Word} {m0 m1 l : Byte} {rest bytes : List Byte}

/-- Check 1 comes first, however many bytes there are (R170). -/
theorem decodeFrameWith_shortText (hn : n < 6) : decodeFrameWith n crcOf bytes = .error .shortText := by
  unfold decodeFrameWith
  split
  · exact if_pos hn
  · rfl

/-- Check 2 (R171). -/
theorem decodeFrameWith_badMagic (hn : 6 ≤ n) (hm : ¬(m0 = Config.magic0 ∧ m1 = Config.magic1)) :
    decodeFrameWith n crcOf (m0 :: m1 :: l :: rest) = .error .badMagic := by
  rw [decodeFrameWith, if_neg (by omega), if_pos hm]

/-- Check 3 (R172). -/
theorem decodeFrameWith_badLength (hn : 6 ≤ n) (hl : rest.length < l.toNat) :
    decodeFrameWith n crcOf (Config.magic0 :: Config.magic1 :: l :: rest) = .error .badLength := by
  rw [decodeFrameWith, if_neg (by omega), if_neg (not_not.mpr ⟨rfl, rfl⟩), if_pos hl]

/-- Check 4 (R173). -/
theorem decodeFrameWith_badChecksum (hb : bytes = Config.magic0 :: Config.magic1 :: l :: rest) (hn : 6 ≤ n)
    (hl : l.toNat ≤ rest.length)
    (hc : crcOf (l.toNat + 1) ≠ be16 (bytes.getD (l.toNat + 1) 0) (bytes.getD (l.toNat + 2) 0)) :
    decodeFrameWith n crcOf bytes = .error (.badChecksum (crcOf (l.toNat + 1))) := by
  subst hb
  rw [decodeFrameWith, if_neg (by omega), if_neg (not_not.mpr ⟨rfl, rfl⟩), if_neg (by omega)]
  exact if_pos hc

end

/-- The step that meets a rejected candidate stops the loop (R169). -/
theorem step_of_examine_error {s u : State} {r : StopReason} (ha : Advances s .frames u)
    (he : s.examine = .error r) : step s = .next (u.stopParse r) := by
  have hu : u.examine = .error r := ha.examine.trans he
  calc step s = runFrame u := step_advances ha
    _ = .next (u.stopParse r) := by rw [runFrame, hu]

/-- The bytes that remain, with the header of the candidate written out (R172). -/
theorem State.remainingBytes_header {s : State} (h : s.bcur.toNat + 3 ≤ s.nbytes) :
    s.remainingBytes = s.frameByte 0 :: s.frameByte 1 :: s.frameByte 2 ::
      s.memRead .scr (s.bcur.toNat + 3) (s.nbytes - (s.bcur.toNat + 3)) := by
  rw [State.remainingBytes, show s.nbytes - s.bcur.toNat = s.nbytes - (s.bcur.toNat + 3) + 1 + 1 + 1 by omega]
  rfl

section
variable {s : State}

theorem six_le_remainingChars (h : s.hcur.toNat + 6 ≤ s.len.toNat) : 6 ≤ s.remainingChars := by
  rw [State.remainingChars, State.count]; omega

/-- With 6 characters left at the lock-step cursors, 3 bytes are left (R35). -/
theorem header_fits (hlock : s.hcur.toNat = 2 * s.bcur.toNat) (h : s.hcur.toNat + 6 ≤ s.len.toNat) :
    s.bcur.toNat + 3 ≤ s.nbytes := by
  rw [State.nbytes, State.count]; omega

theorem examine_of_shortText (h : s.len.toNat < s.hcur.toNat + 6) : s.examine = .error .shortText :=
  decodeFrameWith_shortText (by rw [State.remainingChars, State.count]; omega)

theorem examine_of_badMagic (hlock : s.hcur.toNat = 2 * s.bcur.toNat) (h : s.hcur.toNat + 6 ≤ s.len.toNat)
    (hmagic : ¬(s.frameByte 0 = Config.magic0 ∧ s.frameByte 1 = Config.magic1)) : s.examine = .error .badMagic := by
  rw [State.examine, State.remainingBytes_header (header_fits hlock h)]
  exact decodeFrameWith_badMagic (six_le_remainingChars h) hmagic

theorem examine_of_badLength (hlock : s.hcur.toNat = 2 * s.bcur.toNat) (h : s.hcur.toNat + 6 ≤ s.len.toNat)
    (hmagic : s.frameByte 0 = Config.magic0 ∧ s.frameByte 1 = Config.magic1)
    (hlong : s.nbytes < s.bcur.toNat + 3 + (s.frameByte 2).toNat) : s.examine = .error .badLength := by
  have hheader := header_fits hlock h
  rw [State.examine, State.remainingBytes_header hheader, hmagic.1, hmagic.2]
  exact decodeFrameWith_badLength (six_le_remainingChars h) (by rw [State.memRead_length]; omega)

theorem examine_of_badChecksum {l : Nat} (h : s.hcur.toNat + 6 ≤ s.len.toNat)
    (hmagic : s.frameByte 0 = Config.magic0 ∧ s.frameByte 1 = Config.magic1) (hl : (s.frameByte 2).toNat = l)
    (hfits : s.bcur.toNat + 3 + l ≤ s.nbytes)
    (hcrc : s.textCrc (l + 1) ≠ be16 (s.frameByte (l + 1)) (s.frameByte (l + 2))) :
    s.examine = .error (.badChecksum (s.textCrc (l + 1))) := by
  subst hl
  have hbytes := State.remainingBytes_header (s := s) (by omega)
  rw [hmagic.1, hmagic.2] at hbytes
  have hreceived {k : Nat} (hk : k < 3 + (s.frameByte 2).toNat) : s.remainingBytes.getD k 0 = s.frameByte k :=
    s.memRead_getD .scr (by omega)
  refine decodeFrameWith_badChecksum hbytes (six_le_remainingChars h) ?_ ?_
  · rw [State.memRead_length]; omega
  · rwa [hreceived (by omega), hreceived (by omega)]

end

/-- Settles O32: one lemma per check that fails, and what passes all four is a candidate. -/
theorem parseStopsAtTheFirstFailedCheck : Obligations.ParseStopsAtTheFirstFailedCheck := by
  unfold Obligations.ParseStopsAtTheFirstFailedCheck
  rintro s u l c ha hlock hl rfl
  have htrace : u.ptrace = s.ptrace := by rw [ha.eq]
  rw [← htrace]
  split
  · next hshort => exact step_of_examine_error ha (examine_of_shortText hshort)
  next htext =>
  have henough := not_lt.mp htext
  split
  · next hbad => exact step_of_examine_error ha (examine_of_badMagic hlock henough (not_and_or.mpr hbad))
  next hgood =>
  have hmagic : s.frameByte 0 = Config.magic0 ∧ s.frameByte 1 = Config.magic1 :=
    (not_or.mp hgood).imp not_not.mp not_not.mp
  split
  · next hlong => exact step_of_examine_error ha (examine_of_badLength hlock henough hmagic (hl ▸ hlong))
  next hlength =>
  have hfits := not_lt.mp hlength
  split
  · next hcrc => exact step_of_examine_error ha (examine_of_badChecksum henough hmagic hl.symm hfits hcrc)
  · next hcrc => exact ⟨henough, hmagic.1, hmagic.2, hl.symm, hfits, not_not.mp hcrc⟩

/-! ## The shortest frame -/

/-- Settles O33: with a shorter one the received checksum would overlap the header, which `checkFrame_ok` excludes. -/
theorem validatedFramesHaveFiveBytes : Obligations.ValidatedFramesHaveFiveBytes := by
  unfold Obligations.ValidatedFramesHaveFiveBytes
  have hcrc : crcBytes [0x4C, 0x54, 0x02] = 0x8AF5 := by decide +kernel
  refine ⟨fun bytes i h => ?_, fun s l hgood hp h => ?_, by decide +kernel, by decide +kernel, hcrc, ?_⟩
  · obtain ⟨c, hcheck⟩ := checkFrame_of_decodeFrame h
    obtain ⟨-, -, hl, -⟩ := checkFrame_ok hcheck
    rwa [(checkFrame_bytes hcheck).1] at hl
  · have hl := h.two_le hgood hp
    exact ⟨hl, by omega⟩
  · have hframe : withChecksum [0x4C, 0x54, 0x02] = [0x4C, 0x54, 0x02, 0x8A, 0xF5] := by
      rw [withChecksum, hcrc]; rfl
    rw [← hframe]
    exact decodeFrame_withChecksum (l := 0x02) (tail := []) rfl

/-! ## The end of an operation -/

theorem advanceJob_answers (job : Job) (s : State) : ∃ t, advanceJob job s = .next t := by
  cases job with
  | operation w =>
    cases hd : decodeCommand w with
    | ok i => rw [advanceJob, runCommand_of_decode hd]; exact exec_answers i s
    | error e => exact ⟨s.refuse .illegalCmd, by rw [advanceJob, runCommand, hd]⟩
  | frames =>
    cases he : s.examine with
    | ok frame => rw [advanceJob, runFrame_of_examine he]; exact exec_answers frame.1 _
    | error r => exact ⟨s.stopParse r, by rw [advanceJob, runFrame, he]⟩

/-- What can come between a running block and its job: a reset, nothing, or a transaction to be held (R70, R260). -/
theorem running_cases {s : State} {job : Job} (hp : s.phase = .running job) :
    (∃ rest, s.inputs = .rst :: rest) ∨ (∃ u, Advances s job u) ∨
    ∃ x rest, s.held = none ∧ s.inputs = .txn x :: rest := by
  match hi : s.inputs, hh : s.held with
  | .rst :: rest, _ => exact .inl ⟨rest, rfl⟩
  | .quiet :: rest, _ => exact .inr (.inl ⟨_, hp, .inr (.inl ⟨rest, hi, rfl⟩)⟩)
  | .txn x :: rest, none => exact .inr (.inr ⟨x, rest, rfl, rfl⟩)
  | .txn x :: rest, some y => exact .inr (.inl ⟨s, hp, .inr (.inr ⟨x, rest, y, hi, hh, rfl⟩)⟩)
  | [], _ => exact .inr (.inl ⟨s, hp, .inl ⟨hi, rfl⟩⟩)

/-- The most steps a job can go on for: a validated frame takes at least 5 of at most 1024 bytes, so the loop has at
most 204 frames and the stop, and an operation may be the `PARSE` that enters it (R33, R175). -/
def State.jobSteps (s : State) : Job → Nat
  | .operation _ => 206
  | .frames => (s.nbytes - s.bcur.toNat) / 5 + 1

/-- The most steps until the block is idle: those of its job, and the arrival of one transaction that is held (R70). -/
def State.stepsLeft (s : State) : Nat :=
  match s.phase with
  | .idle => 0
  | .running job => s.jobSteps job + if s.held.isNone then 1 else 0

theorem State.stepsLeft_of_running {s : State} {job : Job} (hp : s.phase = .running job) :
    s.stepsLeft = s.jobSteps job + if s.held.isNone then 1 else 0 := by
  rw [State.stepsLeft, hp]

/-- With a transaction held no further one arrives (R8). -/
theorem State.stepsLeft_of_held {s : State} {job : Job} (hp : s.phase = .running job) (x : HostTxn)
    (ins : List Input) : ({ s with held := some x, inputs := ins } : State).stepsLeft = s.jobSteps job := by
  simp only [State.stepsLeft, hp]
  cases job <;> rfl

theorem State.stepsLeft_of_idle {s : State} (hp : s.phase = .idle) : s.stepsLeft = 0 := by
  rw [State.stepsLeft, hp]

section
variable {s t : State}

theorem Inv.frames_jobSteps_le (h : Inv s) (hp : s.phase = .running .frames) : s.jobSteps .frames ≤ 205 := by
  have hcap := nbytes_le (h.inLoop hp).lenFits
  simp only [Config.scrCap] at hcap
  rw [State.jobSteps]
  omega

/-- A validated frame leaves fewer candidates. -/
theorem Inv.frame_jobSteps_lt (h : Inv s) (hp : s.phase = .running .frames) {i : Instr} {c : Word}
    (he : s.examine = .ok (i, c)) (hx : exec i { s with crc := c } = .next t) :
    t.jobSteps .frames < s.jobSteps .frames := by
  obtain ⟨hl, hfits⟩ := (h.inLoop hp).examine_fits h.lockStep he
  obtain ⟨-, -, hbcur⟩ := h.frame_counts (h.inLoop hp) hl hfits
  cases (exec_frame_eq_passFrame (examine_isFrame he).1 s c).symm.trans hx
  have hcursor : (s.passFrame c (frameUpdate i s.ds) i.lengthByte).bcur.toNat = s.bcur.toNat + (3 + i.lengthByte) :=
    hbcur
  have hbytes : (s.passFrame c (frameUpdate i s.ds) i.lengthByte).nbytes = s.nbytes := rfl
  simp only [State.jobSteps, hcursor, hbytes]
  omega

/-- An idle block has fewer steps left than a running one. -/
theorem stepsLeft_lt_of_idle {job : Job} (hidle : t.phase = .idle) (hp : s.phase = .running job) :
    t.stepsLeft < s.stepsLeft := by
  have hpos : 0 < s.jobSteps job := by cases job <;> exact Nat.succ_pos _
  rw [State.stepsLeft_of_idle hidle, State.stepsLeft_of_running hp]
  omega

/-- Going on with the job ends it or leaves fewer steps. -/
theorem advanceJob_stepsLeft_lt (h : Inv s) {job : Job} (hp : s.phase = .running job)
    (hx : advanceJob job s = .next t) : t.stepsLeft < s.stepsLeft := by
  have hjob (hrun : t.phase = .running .frames) (hlt : t.jobSteps .frames < s.jobSteps job) :
      t.stepsLeft < s.stepsLeft := by
    rw [State.stepsLeft_of_running hrun, State.stepsLeft_of_running hp, (advanceJob_outside_kept hx).1]
    exact Nat.add_lt_add_right hlt _
  obtain ⟨hidle, -⟩ | ⟨hrun, rfl | rfl⟩ := advanceJob_phase hp hx
  · exact stepsLeft_lt_of_idle hidle hp
  · exact hjob hrun (Nat.lt_succ_of_le ((h.advanceJob hp hx).frames_jobSteps_le hrun))
  · obtain ⟨i, c, he, -, hx⟩ | ⟨r, -, rfl⟩ := runFrame_cases hx
    · exact hjob hrun (h.frame_jobSteps_lt hp he hx)
    · exact stepsLeft_lt_of_idle rfl hp

/-- Every step of a running block leaves fewer steps until it is idle (R184, R270). -/
theorem step_stepsLeft_lt (h : Inv s) {job : Job} (hp : s.phase = .running job) :
    ∃ t, step s = .next t ∧ t.stepsLeft < s.stepsLeft := by
  obtain ⟨rest, hi⟩ | ⟨u, ha⟩ | ⟨x, rest, hh, hi⟩ := running_cases hp
  · exact ⟨_, step_reset hi, stepsLeft_lt_of_idle rfl hp⟩
  · obtain ⟨ins, rfl⟩ : ∃ ins, u = { s with inputs := ins } := ⟨_, ha.eq⟩
    obtain ⟨t, hx⟩ := advanceJob_answers job { s with inputs := ins }
    exact ⟨t, (step_advances ha).trans hx,
      advanceJob_stepsLeft_lt (s := { s with inputs := ins }) (h.outside s.held ins) hp hx⟩
  · refine ⟨_, transactionsAreHeldWhileBusy.1 s job x rest hp hh hi, ?_⟩
    rw [State.stepsLeft_of_held hp, State.stepsLeft_of_running hp, hh]
    exact Nat.lt_succ_self _

/-- The steps left are enough. -/
theorem exists_run_idle (h : Inv s) :
    ∃ k t, k ≤ s.stepsLeft ∧ Host.Core.run Sys2Proof.core k s = .next t ∧ t.phase = .idle := by
  induction hn : s.stepsLeft using Nat.strong_induction_on generalizing s with
  | _ n ih =>
    subst hn
    cases hp : s.phase with
    | idle => exact ⟨0, s, Nat.zero_le _, rfl, hp⟩
    | running job =>
      obtain ⟨u, hstep, hlt⟩ := step_stepsLeft_lt h hp
      obtain ⟨k, t, hk, hrun, hidle⟩ := ih _ hlt (everyStepKeepsTheInvariant s u h hstep) rfl
      exact ⟨k + 1, t, by omega, (run_succ hstep k).trans hrun, hidle⟩

theorem Inv.stepsLeft_le (h : Inv s) {job : Job} (hp : s.phase = .running job) : s.stepsLeft ≤ 207 := by
  have hjob : s.jobSteps job ≤ 206 := by
    cases job with
    | operation w => exact Nat.le_refl 206
    | frames => exact Nat.le_succ_of_le (h.frames_jobSteps_le hp)
  rw [State.stepsLeft_of_running hp]
  split <;> omega

end

/-- Settles O23: each step leaves fewer steps until the block is idle, and a good state has at most 207 left. -/
theorem everyOperationEnds : Obligations.EveryOperationEnds := by
  unfold Obligations.EveryOperationEnds
  intro s job h hp
  obtain ⟨k, t, hk, hrun, hidle⟩ := exists_run_idle h
  refine ⟨k, t, Nat.one_le_iff_ne_zero.mpr ?_, hk.trans (h.stepsLeft_le hp), hrun, hidle⟩
  rintro rfl
  cases hrun
  exact not_idle_of_running hp hidle

/-! ## `PARSE` as a function, frame by frame -/

/-- A frame that the checks accept on a text takes some of it, and no more than it has. -/
theorem checkFrame_text_fits {lc : LowercaseHex} {t : List Byte} {i : Instr} {c : Word}
    (h : checkFrame (decText lc t) = .ok (i, c)) : 2 * (3 + i.lengthByte) ≤ t.length := by
  obtain ⟨-, -, -, hfits, -⟩ := checkFrame_ok h
  rw [decText_length] at hfits
  omega

/-- Induction over the frames of a text: it stops at once, or a frame is in front of the rest (R187). -/
theorem frames_induction (lc : LowercaseHex) {motive : List Byte → Prop}
    (stops : ∀ t r, checkFrame (decText lc t) = .error r → motive t)
    (passes : ∀ t i c, checkFrame (decText lc t) = .ok (i, c) → motive (t.drop (2 * (3 + i.lengthByte))) →
      motive t)
    (t : List Byte) : motive t := by
  induction hn : t.length using Nat.strong_induction_on generalizing t with
  | _ n ih =>
    cases hcheck : checkFrame (decText lc t) with
    | error r => exact stops t r hcheck
    | ok frame =>
      obtain ⟨i, c⟩ := frame
      have hfits := checkFrame_text_fits hcheck
      exact passes t i c hcheck (ih _ (by rw [List.length_drop]; omega) _ rfl)

/-- The result does not depend on the fuel, once there is more of it than characters. -/
theorem parseLoop_fuel {lc : LowercaseHex} {t : List Byte} {m n : Nat} (hm : t.length < m) (hn : t.length < n)
    (d : DeviceState) : parseLoop lc m t d = parseLoop lc n t d := by
  induction t using frames_induction lc generalizing m n d with
  | stops t r hcheck =>
    obtain ⟨m, rfl⟩ := Nat.exists_eq_succ_of_ne_zero (Nat.ne_zero_of_lt hm)
    obtain ⟨n, rfl⟩ := Nat.exists_eq_succ_of_ne_zero (Nat.ne_zero_of_lt hn)
    rw [parseLoop_of_error hcheck, parseLoop_of_error hcheck]
  | passes t i c hcheck ih =>
    obtain ⟨m, rfl⟩ := Nat.exists_eq_succ_of_ne_zero (Nat.ne_zero_of_lt hm)
    obtain ⟨n, rfl⟩ := Nat.exists_eq_succ_of_ne_zero (Nat.ne_zero_of_lt hn)
    have hfits := checkFrame_text_fits hcheck
    rw [parseLoop_of_ok hcheck, parseLoop_of_ok hcheck,
      ih (m := m) (n := n) (by rw [List.length_drop]; omega) (by rw [List.length_drop]; omega)]

/-- What a frame makes of DeviceState (R176). -/
def deviceAfter (i : Instr) (d : DeviceState) : DeviceState := (frameUpdate i d).getD d

section
variable {lc : LowercaseHex} {t : List Byte}

theorem parseText_of_error {r : StopReason} (h : checkFrame (decText lc t) = .error r) (d : DeviceState) :
    parseText lc t d = parseStopped r d :=
  parseLoop_of_error h t.length d

theorem parseText_of_ok {i : Instr} {c : Word} (h : checkFrame (decText lc t) = .ok (i, c)) (d : DeviceState) :
    parseText lc t d = .after (frameUpdate i d) i.lengthByte c
      (parseText lc (t.drop (2 * (3 + i.lengthByte))) (deviceAfter i d)) := by
  have hfits := checkFrame_text_fits h
  rw [parseText, parseLoop_of_ok h, parseText, deviceAfter,
    parseLoop_fuel (n := (t.drop (2 * (3 + i.lengthByte))).length + 1) (by rw [List.length_drop]; omega)
      (Nat.lt_succ_self _)]

end

/-! ## A text after whole frames -/

/-- The results of one `PARSE` followed by another one, taken together (R188). -/
def ParseResult.append (r1 r2 : ParseResult) : ParseResult where
  frames := r1.frames + r2.frames
  notifs := r1.notifs + r2.notifs
  ignored := r1.ignored + r2.ignored
  stop := r2.stop
  consumed := r1.consumed + r2.consumed
  crc := r2.crc.or r1.crc
  ds := r2.ds
  events := r1.events ++ r2.events

theorem ParseResult.after_append (u : Option DeviceState) (l : Nat) (c : Word) (r1 r2 : ParseResult) :
    (ParseResult.after u l c r1).append r2 = .after u l c (r1.append r2) := by
  have hcrc : r2.crc.or (some (r1.crc.getD c)) = some ((r2.crc.or r1.crc).getD c) := by cases r2.crc <;> rfl
  simp only [ParseResult.append, ParseResult.after, hcrc, List.append_assoc, Nat.add_right_comm _ _ r2.frames,
    Nat.add_right_comm _ _ r2.notifs, Nat.add_right_comm _ _ r2.ignored, Nat.add_right_comm _ _ r2.consumed]

/-- An empty text adds nothing in front of another one. -/
theorem ParseResult.stopped_append (r : ParseResult) (d : DeviceState) :
    (parseStopped .shortText d).append r = r := by
  simp [ParseResult.append, parseStopped]

/-- Bytes behind an accepted frame make no difference (R105). -/
theorem checkFrame_append {a b : List Byte} {i : Instr} {c : Word} (h : checkFrame a = .ok (i, c)) :
    checkFrame (a ++ b) = .ok (i, c) := by
  obtain ⟨l, rest, ha, hn, hrest, rfl, hreceived, rfl⟩ := decodeFrameWith_eq_ok h
  have hlen : a.length = rest.length + 3 := congrArg List.length ha
  have htake : (a ++ b).take (l.toNat + 1) = a.take (l.toNat + 1) := List.take_append_of_le_length (by omega)
  have hget {k : Nat} (hk : k < l.toNat + 3) : (a ++ b).getD k 0 = a.getD k 0 := List.getD_append _ _ _ _ (by omega)
  have hok := decodeFrameWith_ok (n := 2 * (a ++ b).length) (crcOf := fun n => crcBytes ((a ++ b).take n))
    (bytes := a ++ b) (rest := rest ++ b) (by rw [ha]; rfl) (by rw [List.length_append]; omega)
    (by rw [List.length_append]; omega)
    (by rw [htake, hget (by omega), hget (by omega)]; exact hreceived)
  rwa [htake] at hok

/-- A `PARSE` that consumes a whole text goes on with what follows it. -/
theorem parseText_append {lc : LowercaseHex} {t1 : List Byte} (heven : t1.length % 2 = 0) (t2 : List Byte)
    (d : DeviceState) (hall : 2 * (parseText lc t1 d).consumed = t1.length) :
    parseText lc (t1 ++ t2) d =
      (parseText lc t1 d).append (parseText lc t2 (parseText lc t1 d).ds) := by
  induction t1 using frames_induction lc generalizing d with
  | stops t1 r hcheck =>
    rw [parseText_of_error hcheck] at hall ⊢
    obtain rfl : t1 = [] := List.length_eq_zero_iff.mp hall.symm
    cases hcheck
    rw [ParseResult.stopped_append]
    rfl
  | passes t1 i c hcheck ih =>
    have hfits := checkFrame_text_fits hcheck
    have hboth : checkFrame (decText lc (t1 ++ t2)) = .ok (i, c) := by
      rw [decText_append lc t1 t2 heven]; exact checkFrame_append hcheck
    rw [parseText_of_ok hcheck] at hall ⊢
    simp only [ParseResult.after] at hall
    rw [parseText_of_ok hboth, ParseResult.after_append, List.drop_append_of_le_length hfits]
    refine congrArg (ParseResult.after _ _ _) (ih ?_ _ ?_)
    · rw [List.length_drop]; omega
    · rw [List.length_drop]; omega

/-- Settles O35: `parseText_append`. -/
theorem parsesConcatenate : Obligations.ParsesConcatenate := by
  unfold Obligations.ParsesConcatenate
  rintro lc t1 t2 d r1 r2 heven rfl hall rfl
  exact parseText_append heven t2 d hall

/-! ## The same text again -/

/-- A change of DeviceState that leaves each field as it is or gives it one value, whatever it was. -/
def Overwrites (f : DeviceState → DeviceState) : Prop :=
  ∀ g : Setting, (∀ d, (f d).get g = d.get g) ∨ ∃ v, ∀ d, (f d).get g = v

theorem DeviceState.ext_get {d e : DeviceState} (h : ∀ g, d.get g = e.get g) : d = e := by
  obtain ⟨_, _, _, _, _, _⟩ := d
  obtain ⟨_, _, _, _, _, _⟩ := e
  rw [DeviceState.mk.injEq]
  exact ⟨h .power, h .channel, h .bright, h .cct, h .hue, h .sat⟩

theorem Overwrites.id : Overwrites fun d => d := fun _ => .inl fun _ => rfl

theorem Overwrites.comp {f f' : DeviceState → DeviceState} (h : Overwrites f) (h' : Overwrites f') :
    Overwrites fun d => f' (f d) := by
  intro g
  obtain hkeep' | ⟨v, hv⟩ := h' g
  · obtain hkeep | ⟨v, hv⟩ := h g
    · exact .inl fun d => (hkeep' _).trans (hkeep d)
    · exact .inr ⟨v, fun d => (hkeep' _).trans (hv d)⟩
  · exact .inr ⟨v, fun d => hv _⟩

/-- Doing it again changes nothing. -/
theorem Overwrites.idem {f : DeviceState → DeviceState} (h : Overwrites f) (d : DeviceState) : f (f d) = f d := by
  refine DeviceState.ext_get fun g => ?_
  obtain hkeep | ⟨v, hv⟩ := h g
  · exact hkeep (f d)
  · rw [hv, hv]

/-- A frame writes the values it carries (R179, R180). -/
theorem deviceAfter_overwrites (i : Instr) : Overwrites (deviceAfter i) := by
  intro g
  cases i with
  | status => exact .inr (by cases g <;> exact ⟨_, fun _ => rfl⟩)
  | setack _ _ _ f _ v _ =>
    by_cases hg : g = f
    · exact .inr ⟨some v, fun d => (d.get_set f g v).trans (if_pos hg)⟩
    · exact .inl fun d => (d.get_set f g v).trans (if_neg hg)
  | _ => exact .inl fun _ => rfl

theorem parseText_ds_overwrites (lc : LowercaseHex) (t : List Byte) : Overwrites fun d => (parseText lc t d).ds := by
  induction t using frames_induction lc with
  | stops t r hcheck => simpa only [parseText_of_error hcheck, parseStopped] using Overwrites.id
  | passes t i c hcheck ih =>
    simpa only [parseText_of_ok hcheck, ParseResult.after] using (deviceAfter_overwrites i).comp ih

/-- A result without DeviceState and the events that show it. -/
def ParseResult.withoutDevice (r : ParseResult) : ParseResult := { r with ds := .unknown, events := [] }

/-- Whether a frame is an update does not depend on DeviceState (R176). -/
theorem frameUpdate_isSome (i : Instr) (d d' : DeviceState) : (frameUpdate i d).isSome = (frameUpdate i d').isSome := by
  cases i <;> rfl

/-- Counters, stop code, cursor and checksum do not depend on DeviceState. -/
theorem parseText_withoutDevice (lc : LowercaseHex) (t : List Byte) (d d' : DeviceState) :
    (parseText lc t d).withoutDevice = (parseText lc t d').withoutDevice := by
  induction t using frames_induction lc generalizing d d' with
  | stops t r hcheck => rw [parseText_of_error hcheck, parseText_of_error hcheck]; rfl
  | passes t i c hcheck ih =>
    have hafter (e : DeviceState) (r : ParseResult) :
        (ParseResult.after (frameUpdate i e) i.lengthByte c r).withoutDevice =
          (ParseResult.after (frameUpdate i d) i.lengthByte c r.withoutDevice).withoutDevice := by
      simp only [ParseResult.after, ParseResult.withoutDevice, frameUpdate_isSome i e d]
    rw [parseText_of_ok hcheck, parseText_of_ok hcheck, hafter d, hafter d', ih]

/-- `NOTIFS` counts the events (R183). -/
theorem parseText_events_length (lc : LowercaseHex) (t : List Byte) (d : DeviceState) :
    (parseText lc t d).events.length = (parseText lc t d).notifs := by
  induction t using frames_induction lc generalizing d with
  | stops t r hcheck => rw [parseText_of_error hcheck]; rfl
  | passes t i c hcheck ih =>
    rw [parseText_of_ok hcheck]
    simp only [ParseResult.after, List.length_append, Option.length_toList, ih, Nat.add_comm]

/-- Settles O36: DeviceState has no influence on the rest, and the same values are written again. -/
theorem parsingTwiceGivesTheSame : Obligations.ParsingTwiceGivesTheSame := by
  unfold Obligations.ParsingTwiceGivesTheSame
  rintro lc t d r r2 rfl rfl
  have hsame := parseText_withoutDevice lc t (parseText lc t d).ds d
  simp only [ParseResult.withoutDevice, ParseResult.mk.injEq, and_true] at hsame
  obtain ⟨hframes, hnotifs, hignored, hstop, hconsumed, hcrc⟩ := hsame
  exact ⟨hframes, hnotifs, hignored, hstop, hconsumed, hcrc, (parseText_ds_overwrites lc t).idem d,
    by rw [parseText_events_length, parseText_events_length, hnotifs]⟩

end Sys2Proof.Machine
end

section
/-! PROOFS. The set-command builder: the range of a setting (O26), the frame `BUILDSET` builds, given back to `PARSE`
(O25), and the operation (O24). -/

namespace Sys2Proof.Machine

/-! ## The range of a setting -/

theorem clamp_of_lt {f : Setting} {v : Int} (h : v < clampLo f) : clamp f v = clampLo f := if_pos h

theorem clampLo_le_clampHi (f : Setting) : clampLo f ≤ clampHi f := by cases f <;> decide

theorem clamp_of_gt {f : Setting} {v : Int} (h : clampHi f < v) : clamp f v = clampHi f := by
  have hrange := clampLo_le_clampHi f
  rw [clamp, if_neg (by omega), if_pos h]

theorem clamp_of_mem {f : Setting} {v : Int} (hlo : clampLo f ≤ v) (hhi : v ≤ clampHi f) : clamp f v = v := by
  rw [clamp, if_neg (by omega), if_neg (by omega)]

/-- A clamped value is in its setting's range, whatever was clamped (R201). -/
theorem clamp_mem (f : Setting) (v : Int) : clampLo f ≤ clamp f v ∧ clamp f v ≤ clampHi f := by
  have hrange := clampLo_le_clampHi f
  rcases lt_or_ge v (clampLo f) with hlo | hlo
  · rw [clamp_of_lt hlo]; exact ⟨le_rfl, hrange⟩
  · rcases lt_or_ge (clampHi f) v with hhi | hhi
    · rw [clamp_of_gt hhi]; exact ⟨hrange, le_rfl⟩
    · rw [clamp_of_mem hlo hhi]; exact ⟨hlo, hhi⟩

/-- Every range of the table lies in 0 to 100 (R201). -/
theorem clampRange_in_zero_to_hundred (f : Setting) : 0 ≤ clampLo f ∧ clampHi f ≤ 100 := by cases f <;> decide

theorem clamp_in_zero_to_hundred (f : Setting) (v : Int) : 0 ≤ clamp f v ∧ clamp f v ≤ 100 := by
  obtain ⟨hlo, hhi⟩ := clamp_mem f v
  obtain ⟨hzero, hhundred⟩ := clampRange_in_zero_to_hundred f
  omega

/-- The unsigned byte loses nothing of the clamped value (R201). -/
theorem clampByte_toNat (f : Setting) (v : Int) : ((clampByte f v).toNat : Int) = clamp f v := by
  obtain ⟨hzero, hhundred⟩ := clamp_in_zero_to_hundred f v
  rw [clampByte, BitVec.toNat_ofInt]
  omega

/-- Settles O26: by the three cases of the definition; the bound is that of the table's ranges. -/
theorem clampIsTheStatedRange : Obligations.ClampIsTheStatedRange := by
  unfold Obligations.ClampIsTheStatedRange
  refine ⟨by decide, fun f v => ?_, clamp_of_gt (by decide), clamp_of_lt (by decide)⟩
  obtain ⟨hzero, hhundred⟩ := clamp_in_zero_to_hundred f v
  exact ⟨clamp_of_lt, clamp_of_gt, clamp_of_mem, hzero, hhundred, clampByte_toNat f v⟩

/-! ## The built frame -/

/-- The instruction whose frame `BUILDSET` builds: a set-command with reserved byte 0, the field code, one argument and
its value (R202). -/
def setFrame (f : Setting) (w : Byte) : Instr :=
  .setcmd Config.cmdDevId Config.cmdDevType [0x00, fieldCode f, Config.cmdArgc, w]

/-- The ten body bytes are the magic, the length byte and the body of that set-command (R202). -/
theorem frameBody_setFrame (f : Setting) (w : Byte) : frameBody (setFrame f w) = setBody f w := rfl

theorem encode_setFrame (f : Setting) (w : Byte) : encode (setFrame f w) = .frame (withChecksum (setBody f w)) := by
  rw [encode_frame rfl, frameBody_setFrame]

/-- The built text is the frame's bytes in digits: `HEXENC16` of the checksum is `HEXENC` of its two bytes (R133). -/
theorem setText_eq_encBytes (f : Setting) (w : Byte) : setText f w = encBytes (withChecksum (setBody f w)) :=
  (encBytes_append _ _).symm

theorem decText_setText (lc : LowercaseHex) (f : Setting) (w : Byte) :
    decText lc (setText f w) = withChecksum (setBody f w) := by
  rw [setText_eq_encBytes, decText_encBytes]

/-- The CRC over the digits of some bytes is the one over the bytes (R154). -/
theorem crcText_encBytes (lc : LowercaseHex) (bytes : List Byte) : crcText lc (encBytes bytes) = crcBytes bytes := by
  rw [crcText, decText_encBytes]

/-- The text's first 20 characters are those of the ten body bytes (R203). -/
theorem setText_take (f : Setting) (w : Byte) : (setText f w).take 20 = encBytes (setBody f w) :=
  List.take_left' (encBytes_length _)

/-- The built bytes pass the four checks, with the checksum they carry (R204). -/
theorem checkFrame_setText (lc : LowercaseHex) (f : Setting) (w : Byte) :
    checkFrame (decText lc (setText f w)) = .ok (setFrame f w, crcBytes (setBody f w)) := by
  have hdecode : decodeFrame (withChecksum (setBody f w)) = .ok (setFrame f w) := by
    have hundo : decode (encode (setFrame f w)) = .ok (setFrame f w) := decodeUndoesEncode _ rfl
    rwa [encode_setFrame] at hundo
  obtain ⟨c, hcheck⟩ := checkFrame_of_decodeFrame hdecode
  obtain ⟨-, -, -, -, hc⟩ := checkFrame_ok hcheck
  have htake : (withChecksum (setBody f w)).take 10 = setBody f w := List.take_left' rfl
  rw [decText_setText, hcheck, hc]
  exact congrArg (fun body => Except.ok (setFrame f w, crcBytes body)) htake

/-- `PARSE` takes the whole text as one frame that updates nothing, and stops at the end of the text (R182, R204). -/
theorem parseText_setText (lc : LowercaseHex) (f : Setting) (w : Byte) (d : DeviceState) :
    parseText lc (setText f w) d =
      .after none 9 (crcBytes (setBody f w)) (parseStopped .shortText d) := by
  have hempty : (setText f w).drop 24 = [] := List.drop_of_length_le (setText_length f w).le
  calc parseText lc (setText f w) d
      _ = .after none 9 (crcBytes (setBody f w)) (parseText lc ((setText f w).drop 24) d) :=
        parseText_of_ok (checkFrame_setText lc f w) d
      _ = .after none 9 (crcBytes (setBody f w)) (parseStopped .shortText d) := by rw [hempty]; rfl

/-- Settles O25: the text is the digits of the encoding of `setFrame`, which `PARSE` ignores. -/
theorem builtFrameValidatesAndIsIgnored : Obligations.BuiltFrameValidatesAndIsIgnored := by
  unfold Obligations.BuiltFrameValidatesAndIsIgnored
  intro lc f w d text htext
  obtain rfl : text = setText f w := htext
  refine ⟨?_, setText_length f w, parseText_setText lc f w d, ?_, crcText_checksummed lc (setBody f w)⟩
  · rw [decText_setText]
    exact encode_setFrame f w
  · rw [setText_take, crcText_encBytes]

/-! ## The operation -/

/-- `SEL` with a setting's field code selects it (R26). -/
theorem State.setting_of_fieldCode {s : State} {f : Setting} (h : s.sel = (fieldCode f).setWidth 3) :
    s.setting = some f := by
  have hcode : ((fieldCode f).setWidth 3).setWidth 8 = fieldCode f := by cases f <;> rfl
  rw [State.setting, h, hcode, settingOfCode_fieldCode]

/-- `SEL` 6 and 7 select nothing (R26), and `BUILDSET` is refused (R231). -/
theorem refusalOf_selUnnamed {s : State} (h : s.sel = 6 ∨ s.sel = 7) : refusalOf .buildset s = some .selRange := by
  have hnone : s.setting = none := by
    rcases h with h | h <;> rw [State.setting, h] <;> rfl
  rw [refusalOf, hnone]
  rfl

/-- The refusal with code 3 (R231, R232). -/
theorem State.refuse_selRange (s : State) :
    s.refuse .selRange = { s with status := 0x7, phase := .idle, ptrace := s.ptrace ++ [.done] } := rfl

/-- The produced text is what `TXBUF` holds from index 0. -/
theorem State.produceText_memRead (s : State) (text : List Byte) (c : Word) (n : BitVec 12) :
    (s.produceText text c n).memRead .txbuf 0 text.length = text :=
  calc (s.produceText text c n).memRead .txbuf 0 text.length
      _ = (s.memWrite .txbuf 0 text).memRead .txbuf 0 text.length :=
        State.memRead_congr fun _ _ => State.peek_congr rfl rfl _
      _ = text := s.memRead_memWrite_same .txbuf 0 text

/-- A produced text changes `TXBUF`, `CRC` and `OUTLEN`, and ends the operation; nothing else (R203). -/
theorem State.produceText_frame (s : State) (text : List Byte) (c : Word) (n : BitVec 12) :
    s.produceText text c n =
      { s with txbuf := (s.produceText text c n).txbuf, crc := c, outlen := n, phase := .idle,
               ptrace := s.ptrace ++ [.done] } := rfl

/-- Settles O24: the effect is a produced text, `setText` of the setting and its clamped value. -/
theorem buildsetBuildsTheFrame : Obligations.BuildsetBuildsTheFrame := by
  unfold Obligations.BuildsetBuildsTheFrame
  refine ⟨rfl, fun s => ⟨fun hsel => ?_, fun f body hsel hbody => ?_⟩⟩
  · rw [exec_refused (refusalOf_selUnnamed hsel), s.refuse_selRange]
  · obtain rfl : body = setBody f (clampByte f s.signedVal) := hbody
    have heffect : Effect .buildset s _ := .buildset (State.setting_of_fieldCode hsel)
    exact ⟨_, heffect.exec_eq, s.produceText_memRead (setText f _) _ _, crcText_encBytes s.lowercase _,
      fun a ha => s.produceText_peek_above _ _ ha, s.produceText_frame _ _ _⟩

end Sys2Proof.Machine
end

section
/-! PROOFS. The system operations: `NOP` (O16) and `DSCLR` (O27), the status clear (O42), and the one `Done` that ends
every command (O49). -/

namespace Sys2Proof.Machine

/-! ## `NOP` and `DSCLR` -/

/-- Settles O16: the effect of `NOP` is `emitDone` alone. -/
theorem nopOnlyPulsesDone : Obligations.NopOnlyPulsesDone := ⟨rfl, fun _ => Effect.nop.exec_eq⟩

/-- Settles O27: the effect of `DSCLR` is a write of DeviceState and `emitDone`. -/
theorem dsclrForgetsDeviceState : Obligations.DsclrForgetsDeviceState := ⟨rfl, fun _ => Effect.dsclr.exec_eq⟩

/-! ## The status clear -/

/-- The clear as one update of `STATUS` (R221). -/
theorem State.clearStatus_eq (s : State) (v : Word) :
    s.clearStatus v = { s with status := if v.getLsbD 0 then 0 else s.status } := by
  unfold State.clearStatus
  split <;> rfl

/-- Settles O42: the step is `clearStatus` on the state without the transaction. -/
theorem statusClearIsWriteOne : Obligations.StatusClearIsWriteOne := by
  unfold Obligations.StatusClearIsWriteOne
  intro s u v ha
  have hstatus : u.status = s.status := by rw [ha.eq.1]
  calc step s = .next (u.clearStatus v) := step_acts ha
    _ = .next { u with status := if v.getLsbD 0 then 0 else s.status } := by rw [u.clearStatus_eq, hstatus]

/-! ## How the parts of a command end -/

/-- A transaction takes effect on the port events of the state before the step. -/
theorem Acts.ptrace_eq {s u : State} {x : HostTxn} (h : Acts s x u) : u.ptrace = s.ptrace := by rw [h.eq.1]

/-- The sequencer goes on from the port events of the state before the step. -/
theorem Advances.ptrace_eq {s u : State} {job : Job} (h : Advances s job u) : u.ptrace = s.ptrace := by rw [h.eq]

/-- A command is refused with its one `Done`, or accepted without an event (R215, R232). -/
theorem acceptCommand_events {w : Word} {s t : State} (h : acceptCommand w s = .next t) :
    (t.phase = .idle ∧ t.ptrace = s.ptrace ++ [.done]) ∨
    (t.phase = .running (.operation w) ∧ t.ptrace = s.ptrace) := by
  obtain ⟨i, -, -, rfl⟩ | ⟨c, rfl, -⟩ := acceptCommand_cases h
  · exact .inr ⟨rfl, rfl⟩
  · exact .inl ⟨rfl, rfl⟩

/-- An accepted command ends with its one `Done`, or it is `PARSE` and enters its loop (R244). -/
theorem runCommand_events {w : Word} {s t : State} (h : runCommand w s = .next t) :
    (t.phase = .idle ∧ t.ptrace = s.ptrace ++ [.done]) ∨
    (t.phase = .running .frames ∧ w = 0x0005 ∧ t.ptrace = s.ptrace) := by
  obtain ⟨i, hd, hf, hx⟩ | ⟨-, rfl⟩ := runCommand_cases h
  · obtain hdone | ⟨rfl, hloop, hkeep⟩ := exec_operation hf hx
    · exact .inl hdone
    · exact .inr ⟨hloop, eq_of_decodeCommand_parse hd, hkeep⟩
  · exact .inl ⟨rfl, rfl⟩

/-- A frame emits one `Notify` where it updates DeviceState, and nothing where it is ignored (R183, R241). -/
theorem exec_frame_events {i : Instr} {s t : State} (hf : i.isFrame = true) (h : exec i s = .next t) :
    t.ptrace = s.ptrace ∨ t.ptrace = s.ptrace ++ [.notify] := by
  rw [exec_frame hf] at h
  split at h <;> cases h
  · exact .inr rfl
  · exact .inl rfl

/-- An iteration of the loop stops with the one `Done` of its `PARSE`, or passes one frame (R169, R244). -/
theorem runFrame_events {s t : State} (hp : s.phase = .running .frames) (h : runFrame s = .next t) :
    (t.phase = .idle ∧ t.ptrace = s.ptrace ++ [.done]) ∨
    (t.phase = .running .frames ∧ (t.ptrace = s.ptrace ∨ t.ptrace = s.ptrace ++ [.notify])) := by
  obtain ⟨i, c, -, hf, hx⟩ | ⟨r, -, rfl⟩ := runFrame_cases h
  · exact .inr ⟨(exec_frame_phase hf hx).trans hp, exec_frame_events (s := { s with crc := c }) hf hx⟩
  · exact .inl ⟨rfl, rfl⟩

/-! ## Steps that emit neither `Done` nor `Notify` -/

/-- A host transaction that presents no command emits nothing or returns one value (R8, R221). -/
theorem perform_events {x : HostTxn} {s t : State} (hx : ∀ w, x ≠ .write .reg 0 w) (h : perform x s = .next t) :
    t.ptrace = s.ptrace ∨ ∃ v, t.ptrace = s.ptrace ++ [.returned v] := by
  obtain ⟨w, rfl, -⟩ | ⟨v, -, rfl⟩ | ⟨v, -, rfl⟩ | ⟨v, -, rfl⟩ | ⟨v, -, rfl⟩ | ⟨b, a, v, -, -, -, rfl⟩ |
    ⟨sp, a, -, rfl⟩ | rfl := perform_cases h
  · exact absurd rfl (hx w)
  · exact .inl (by rw [s.clearStatus_eq])
  · exact .inl rfl
  · exact .inl rfl
  · exact .inl rfl
  · exact .inl (s.memWrite_ptrace b a _)
  · exact .inr ⟨_, rfl⟩
  · exact .inl rfl

/-- The port events after a step in which no command is presented and the sequencer does not go on: those before it, one
more returned value, or what a reset leaves. -/
theorem step_events {s t : State} (h : step s = .next t) (hcmd : ∀ w u, ¬Acts s (.write .reg 0 w) u)
    (hadv : ∀ job u, ¬Advances s job u) :
    t.ptrace = s.ptrace ∨ (∃ v, t.ptrace = s.ptrace ++ [.returned v]) ∨
    t.ptrace = abandoned (s.epoch + 1) s.held := by
  obtain ⟨_, -, rfl⟩ | ⟨x, u, ha, hx⟩ | ⟨job, u, ha, -⟩ | ⟨_, _, _, -, -, -, rfl⟩ |
    ⟨-, -, ⟨_, -, rfl⟩ | ⟨-, rfl⟩⟩ := step_cases h
  · exact .inr (.inr rfl)
  · have hne : ∀ w, x ≠ .write .reg 0 w := by
      rintro w rfl
      exact hcmd w u ha
    have hevents := perform_events hne hx
    rw [ha.ptrace_eq] at hevents
    exact hevents.imp_right .inl
  · exact absurd ha (hadv job u)
  · exact .inl rfl
  · exact .inl rfl
  · exact .inl rfl

/-- An abandoned transaction shows nothing but the value of a held read (R260). -/
theorem count_abandoned {e : PortEvent} (he : ∀ v, e ≠ .returned v) (n : Nat) (x : Option HostTxn) :
    (abandoned n x).count e = 0 := by
  refine List.count_eq_zero_of_not_mem fun hmem => ?_
  obtain _ | ⟨_ | _⟩ := x
  · cases hmem
  · cases hmem
  · exact he _ (List.mem_singleton.mp hmem)

/-- Such a step adds no event but a returned value. -/
theorem step_count_le {s t : State} (h : step s = .next t) (hcmd : ∀ w u, ¬Acts s (.write .reg 0 w) u)
    (hadv : ∀ job u, ¬Advances s job u) {e : PortEvent} (he : ∀ v, e ≠ .returned v) :
    t.ptrace.count e ≤ s.ptrace.count e := by
  obtain hkeep | ⟨v, hread⟩ | hreset := step_events h hcmd hadv
  · rw [hkeep]
  · have hnone : [PortEvent.returned v].count e = 0 := List.count_eq_zero_of_not_mem (he v ∘ List.mem_singleton.mp)
    rw [hread, List.count_append, hnone, Nat.add_zero]
  · rw [hreset, count_abandoned he]
    exact Nat.zero_le _

/-- Settles O49: acceptance, execution and iteration each end as their lemma says, and any other step adds no strobe. -/
theorem doneEndsEveryCommand : Obligations.DoneEndsEveryCommand := by
  unfold Obligations.DoneEndsEveryCommand
  refine ⟨fun s u t w ha h => ?_, fun s u t w ha h => ?_, fun s u t ha h => ?_, fun s t h hcmd hadv => ?_⟩
  · rw [← ha.ptrace_eq]
    exact acceptCommand_events ((step_acts ha).symm.trans h)
  · rw [← ha.ptrace_eq]
    exact runCommand_events ((step_advances ha).symm.trans h)
  · rw [← ha.ptrace_eq]
    exact runFrame_events ha.phase_eq ((step_advances ha).symm.trans h)
  · exact ⟨step_count_le h hcmd hadv nofun, step_count_le h hcmd hadv nofun⟩

end Sys2Proof.Machine
end

section
/-! PROOFS. The block's only exception and its absence of any other: the exact causes and the whole effect of a refusal
(O41), a step that always answers (O50), and a block that holds its state with nothing to do (O55). -/

namespace Sys2Proof.Machine

/-! ## The causes of a refusal by operand -/

/-- The table of R231 for the operations on text. -/
theorem refusalOf_text {i : Instr} (hi : i = .hexdec ∨ i = .crc16 ∨ i = .parse) (s : State) :
    refusalOf i s = if Config.rxCap < s.len.toNat then some .lenRange else none := by
  split
  · next hlen => exact refusalOf_textTooLong hi hlen
  · next hlen =>
    have hfit : s.textFits = true := State.textFits_iff.mpr (Nat.le_of_not_lt hlen)
    obtain rfl | rfl | rfl := hi
    · exact (Effect.hexdec hfit).notRefused
    · exact (Effect.crc16 hfit).notRefused
    · exact (Effect.parse hfit).notRefused

/-- The table of R231 for the operation on bytes. -/
theorem refusalOf_hexenc (s : State) :
    refusalOf .hexenc s = if Config.scrCap < s.len.toNat then some .lenRange else none := by
  split
  · next hlen => exact refusalOf_bytesTooLong hlen
  · next hlen => exact (Effect.hexenc (State.bytesFit_iff.mpr (Nat.le_of_not_lt hlen))).notRefused

/-- `SEL` selects a setting up to 5 (R26). -/
theorem State.setting_isSome (s : State) : s.setting.isSome = decide (s.sel.toNat ≤ 5) := by
  rw [State.setting, settingOfCode_isSome, fieldCodeNamed, BitVec.toNat_setWidth_of_le (by decide)]

/-- The table of R231 for `BUILDSET`. -/
theorem refusalOf_buildset (s : State) :
    refusalOf .buildset s = if 5 < s.sel.toNat then some .selRange else none := by
  rw [refusalOf, s.setting_isSome]
  by_cases hsel : 5 < s.sel.toNat
  · rw [if_pos hsel, if_neg (by simpa using hsel)]
  · rw [if_neg hsel, if_pos (by simpa using hsel)]

/-- What is not refused has its effect, and only that. -/
theorem effect_of_notRefused {i : Instr} {s t : State} (hr : refusalOf i s = none) (h : exec i s = .next t) :
    Effect i s t := by
  obtain heffect | ⟨c, hc, -⟩ := exec_cases h
  · exact heffect
  · exact nomatch hr.symm.trans hc

/-- `ERRCODE` tells the cause of a refusal (R231). -/
theorem errCode_statusOfRefusal (c : RefuseCode) : errCode (statusOfRefusal c) = refuseNumber c := by cases c <;> rfl

/-- Settles O41: a refused instruction is `State.refuse`, an unrefused one has an effect, and no effect writes
`STATUS`. -/
theorem refusalsAreExactlyTheListed : Obligations.RefusalsAreExactlyTheListed := by
  unfold Obligations.RefusalsAreExactlyTheListed
  refine ⟨fun i s c hc => exec_refused hc,
    fun s => ⟨fun i hi => refusalOf_text hi s, refusalOf_hexenc s, refusalOf_buildset s, fun i hi => ?_⟩,
    fun i s t hr h => (effect_of_notRefused hr h).status_kept,
    errBit_statusOfRefusal, errCode_statusOfRefusal .illegalCmd, errCode_statusOfRefusal .lenRange,
    errCode_statusOfRefusal .selRange⟩
  obtain rfl | rfl | rfl | hf := hi
  · exact Effect.nop.notRefused
  · exact Effect.hexenc16.notRefused
  · exact Effect.dsclr.notRefused
  · exact refusalOf_frame hf s

/-! ## Every step answers -/

/-- Every command word is accepted or refused (R215). -/
theorem acceptCommand_answers (w : Word) (s : State) : ∃ t, acceptCommand w s = .next t := by
  cases hd : decodeCommand w with
  | error e => exact ⟨_, acceptCommand_of_illegal hd⟩
  | ok i =>
    cases hr : refusalOf i s with
    | none => exact ⟨_, acceptCommand_of_accepted hd hr⟩
    | some c => exact ⟨_, acceptCommand_of_refused hd hr⟩

/-- Every host transaction completes, whatever its address (R8, R21, R67). -/
theorem perform_answers (x : HostTxn) (s : State) : ∃ t, perform x s = .next t := by
  match x with
  | .write .reg 0 w => exact acceptCommand_answers w s
  | .write .reg 1 v => exact ⟨s.clearStatus v, rfl⟩
  | .write .reg 2 v => exact ⟨{ s with len := v.setWidth 12 }, rfl⟩
  | .write .reg 3 v => exact ⟨{ s with val := v }, rfl⟩
  | .write .reg 4 v => exact ⟨{ s with sel := v.setWidth 3 }, rfl⟩
  | .write .reg (i + 5) v => exact ⟨s, hostWriteReg_readOnly (Nat.le_add_left 5 i) v s⟩
  | .write (.buf b) a v => exact ⟨s.hostWriteBuf b a v, rfl⟩
  | .read sp a => exact ⟨s.returnValue (s.hostRead sp a), rfl⟩

/-- An idle block with nothing held takes its next input. -/
theorem step_of_free {s : State} (hp : s.phase = .idle) (hh : s.held = none) : step s = stepFree s := by
  simp only [step, stepBlock, hp, hh]

/-- What an idle block can meet: a reset, a transaction, or neither with nothing held (R70, R252, R260). -/
theorem idle_cases {s : State} (hp : s.phase = .idle) :
    (∃ rest, s.inputs = .rst :: rest) ∨ (∃ x u, Acts s x u) ∨
    (s.held = none ∧ ((∃ rest, s.inputs = .quiet :: rest) ∨ s.inputs = [])) := by
  cases hh : s.held with
  | some x =>
    by_cases hr : ∃ rest, s.inputs = .rst :: rest
    · exact .inl hr
    · exact .inr (.inl ⟨x, _, hp, .inr ⟨hh, not_exists.mp hr, rfl⟩⟩)
  | none =>
    match hi : s.inputs with
    | .rst :: rest => exact .inl ⟨rest, rfl⟩
    | .txn x :: rest => exact .inr (.inl ⟨x, _, hp, .inl ⟨hh, rest, hi, rfl⟩⟩)
    | .quiet :: rest => exact .inr (.inr ⟨rfl, .inl ⟨rest, rfl⟩⟩)
    | [] => exact .inr (.inr ⟨rfl, .inr rfl⟩)

/-- Settles O55: the free step without an input. -/
theorem idleHoldsItsState : Obligations.IdleHoldsItsState := by
  unfold Obligations.IdleHoldsItsState
  intro s hp hh hi
  rw [step_of_free hp hh, stepFree, hi]

/-- An idle block goes on: its transactions complete, and with none it waits (R70, R252). -/
theorem safe_of_idle {s : State} (hp : s.phase = .idle) : Safe s := by
  obtain ⟨rest, hi⟩ | ⟨x, u, ha⟩ | ⟨hh, ⟨rest, hi⟩ | hi⟩ := idle_cases hp
  · exact ⟨_, step_reset hi⟩
  · obtain ⟨t, ht⟩ := perform_answers x u
    exact ⟨t, (step_acts ha).trans ht⟩
  · exact ⟨{ s with inputs := rest }, by rw [step_of_free hp hh, stepFree, hi]⟩
  · exact ⟨s, idleHoldsItsState s hp hh hi⟩

/-- A running block goes on: its job answers, or a transaction is held meanwhile (R45, R70). -/
theorem safe_of_running {s : State} {job : Job} (hp : s.phase = .running job) : Safe s := by
  obtain ⟨rest, hi⟩ | ⟨u, ha⟩ | ⟨x, rest, hh, hi⟩ := running_cases hp
  · exact ⟨_, step_reset hi⟩
  · obtain ⟨t, ht⟩ := advanceJob_answers job u
    exact ⟨t, (step_advances ha).trans ht⟩
  · exact ⟨_, transactionsAreHeldWhileBusy.1 s job x rest hp hh hi⟩

/-- Settles O50: the step answers in each phase, and `exec` for every instruction. -/
theorem blockNeverStops : Obligations.BlockNeverStops := by
  unfold Obligations.BlockNeverStops
  refine ⟨fun s => ?_, exec_answers⟩
  cases hp : s.phase with
  | idle => exact safe_of_idle hp
  | running job => exact safe_of_running hp

end Sys2Proof.Machine
end

section
/-! PROOFS. The reset while the block is in use (O2): what it does to the buffers and to the events at the port. -/

namespace Sys2Proof.Machine

/-- After a reset no location is written, so each shows the free byte of the new epoch (R48, R260; log 4). -/
theorem State.peek_resetWith (s : State) (rest : List Input) (b : Buffer) (a : Nat) :
    (s.resetWith rest).peek b a = Config.resetByte (s.epoch + 1) b a := by
  cases b <;> rfl

/-- A reset emits no strobe: no event but the value of a held read (R260). -/
theorem State.not_mem_ptrace_resetWith {e : PortEvent} (he : ∀ v, e ≠ .returned v) (s : State) (rest : List Input) :
    e ∉ (s.resetWith rest).ptrace :=
  List.count_eq_zero.mp (count_abandoned he (s.epoch + 1) s.held)

/-- A write held when the reset arrives shows nothing at the port (R260). -/
theorem State.ptrace_resetWith_of_held_write {s : State} {sp : Space} {a : Nat} {v : Word}
    (hheld : s.held = some (.write sp a v)) (rest : List Input) : (s.resetWith rest).ptrace = [] := by
  rw [State.resetWith_ptrace, hheld, abandoned]

/-- A read held when the reset arrives returns the free value of the new epoch (R260; log 8). -/
theorem State.ptrace_resetWith_of_held_read {s : State} {sp : Space} {a : Nat}
    (hheld : s.held = some (.read sp a)) (rest : List Input) :
    (s.resetWith rest).ptrace = [.returned (Config.abandonedRead (s.epoch + 1))] := by
  rw [State.resetWith_ptrace, hheld, abandoned]

/-- Settles O2: in every phase the step is the reset, whose registers are those of `State.reset`. -/
theorem resetAbandonsWhatRuns : Obligations.ResetAbandonsWhatRuns := by
  unfold Obligations.ResetAbandonsWhatRuns
  intro s rest hrst
  obtain ⟨hregs, hds, hntrace, hphase, hbusy, -⟩ := resetGivesTheStatedValues
  exact ⟨s.resetWith rest, step_reset hrst, hregs, hds, hntrace, hphase, hbusy, s.resetWith_held rest,
    State.not_mem_ptrace_resetWith (e := .done) nofun s rest,
    State.not_mem_ptrace_resetWith (e := .notify) nofun s rest,
    fun _ _ _ hwrite => State.ptrace_resetWith_of_held_write hwrite rest,
    fun _ _ hread => ⟨_, State.ptrace_resetWith_of_held_read hread rest⟩,
    s.peek_resetWith rest, s.resetWith_inputs rest, s.resetWith_lowercase rest⟩

end Sys2Proof.Machine
end
